-- ==== Sys2Proof/Word.lean ====
section
/-! DEFINITION. The word types of the device: bytes, 16-bit Data words, 32-bit frame addresses and bus addresses. -/

namespace Sys2Proof

/-- One byte (the stored task-file registers, R52; every buffer is a list of bytes, R50). -/
abbrev Byte := BitVec 8

/-- One 16-bit word, what a Data access moves (R52, R55). -/
abbrev Half := BitVec 16

/-- A frame address (FAD), 32 bits wide (R26, R28). -/
abbrev Fad := BitVec 32

/-- A host bus address or a register of the DMA collaborator, 32 bits wide (R33, R51). -/
abbrev Addr := BitVec 32

end Sys2Proof
end

