-- ==== Sys2Proof/Machine/Memory.lean ====
section
/-! DEFINITION. Host memory as the device sees it (R50, R60): the bytes it has stored, as a list of cells with strictly
rising addresses. -/

namespace Sys2Proof.Machine

/-- The canonical form: addresses strictly rising and inside the 32-bit address space (log entry 12). An unlisted
address reads as no value, so no entry can equal what it would read as unlisted. -/
abbrev Memory.wf (m : List Host.Cell) : Prop :=
  m.Pairwise (fun a b => a.1 < b.1) ∧ ∀ c ∈ m, c.1 < 4294967296

/-- The byte at an address, if the device has stored one there; `none` stands for whatever was there before
(R60; file 93, U24). -/
def memRead : List Host.Cell → Nat → Option Byte
  | [], _ => none
  | c :: m, a => if a = c.1 then some c.2 else memRead m a

/-- Store one byte. -/
def memWrite : List Host.Cell → Nat → Byte → List Host.Cell
  | [], a, v => [(a, v)]
  | c :: m, a, v =>
    if a < c.1 then (a, v) :: c :: m
    else if a = c.1 then (a, v) :: m
    else c :: memWrite m a v

/-- The address of byte `i` of a store at `addr` (R60); addresses wrap at 32 bits as `dmaCursor` does (R254). -/
def storeAddr (addr : Addr) (i : Nat) : Nat := (addr + BitVec.ofNat 32 i).toNat

/-- Store a byte sequence, ascending (R60). -/
def memWriteBytes (m : List Host.Cell) (addr : Addr) : List Byte → List Host.Cell
  | [] => m
  | b :: bs => memWriteBytes (memWrite m addr.toNat b) (addr + 1) bs

end Sys2Proof.Machine
end

