-- ==== Sys2Proof/Config.lean ====
section
/-! DEFINITION. What an implementation fixes (R5): the record `Cfg`, one field for every entry of the two tables of R5 and
for every code of the tables of R101 and R102 (file 93, U7), the constraints on it, and the free values of the machine
(opaque, no body). The values of the tables stand in Sys2Proof/Machine/Reference.lean. -/

namespace Sys2Proof

/-! ### The types `Cfg` is made of -/

/-- The ports of the register map (R51). -/
inductive Port where
  | data | error | features | interruptReason | sectorCount | sectorNumber | byteCountLow
  | byteCountHigh | driveSelect | status | command | altStatus | deviceControl
  deriving DecidableEq, Repr

/-- The direction of a host access (R51): a port is a row of the map with a direction. -/
inductive Dir where
  | read | write
  deriving DecidableEq, Repr

/-- One entry of `PORT_OFFSET` (R51): this address, in this direction, reaches this port. -/
structure PortEntry where
  addr : Addr
  dir : Dir
  port : Port
  deriving DecidableEq, Repr

/-- `MEDIA_ABSENT_POLICY` (R5, R216). -/
inductive MediaAbsentPolicy where
  | ignore | notReady
  deriving DecidableEq, Repr

/-- The three-field sense (R22): key 4 bits, additional code and qualifier 8 bits each. -/
structure Sense where
  key : BitVec 4
  asc : Byte
  ascq : Byte
  deriving DecidableEq, Repr

/-- The media types (R29). -/
inductive DiscType where
  | audioCd | dataCd | cdXa | cdExtra | cdi | gdRom | noDisc | trayOpen
  deriving DecidableEq, Repr

/-- A question to the media backend (R35), one sector at a time for `readSectors` (R61). -/
inductive MediaQuery where
  | sector (fad : Fad) (size : Nat)
  | subchannel (length : Nat)
  | track (fad : Fad)
  | toc (area : Bool)
  | session (number : Byte)
  deriving DecidableEq, Repr

/-- A media backend (R35), an external collaborator: which backend it is, the disc type it reports, and those of its
answers that are known. Every other answer is a free value (log entry 8). -/
structure Media where
  id : Nat
  discType : DiscType
  answers : List (MediaQuery × List Byte)
  deriving DecidableEq, Repr

/-- The configuration record (R5): one field for each entry of its two tables, and one for each code of R101 and R102
(file 93, U7). A machine carries its `Cfg` unchanged for ever (log entry 6). -/
structure Cfg where
  /-- `PACKET_BYTES`: bytes of a packet command (R5, R23). -/
  packetBytes : Nat
  /-- `SECTOR_DATA`: bytes of a data sector (R5, R26, R93). -/
  sectorData : Nat
  /-- `SECTOR_RAW`: bytes of a raw sector (R5, R26, R93). -/
  sectorRaw : Nat
  /-- `SECTOR_AUDIO`: bytes of an audio sector (R5, R280). -/
  sectorAudio : Nat
  /-- `PIO_BURST_SECTORS`: sectors in one PIO window (R5, R127; conflict C4; file 93, U15). -/
  pioBurstSectors : Nat
  /-- `CACHE_SECTORS`: sectors in one cache refill (R5, R27, R251). -/
  cacheSectors : Nat
  /-- `DMA_CHUNK_BYTES` (R5, R254). -/
  dmaChunkBytes : Nat
  /-- `TOC_BYTES`: bytes of the table of contents (R5, R206). -/
  tocBytes : Nat
  /-- `STATUS_RECORD_BYTES`: bytes of the status record (R5, R202). -/
  statusRecordBytes : Nat
  /-- `MODE_WRITABLE_BYTES`: the bytes of the mode block that SET_MODE reaches (R5, R204). -/
  modeWritableBytes : Nat
  /-- `REPEAT_INFINITE` (R5, R94). -/
  repeatInfinite : BitVec 4
  /-- `SK_NO_SENSE` (R5, R100). -/
  skNoSense : BitVec 4
  /-- `SK_NOT_READY` (R5, R100). -/
  skNotReady : BitVec 4
  /-- `SK_UNIT_ATTENTION` (R5, R100). -/
  skUnitAttention : BitVec 4
  /-- `SK_ABORTED` (R5, R100). -/
  skAborted : BitVec 4
  /-- `PORT_OFFSET` (R51). -/
  portMap : List PortEntry
  /-- `OP_ATA_NOP` (R82). -/
  opAtaNop : Byte
  /-- `OP_ATA_SOFT_RESET` (R82). -/
  opAtaSoftReset : Byte
  /-- `OP_ATA_EXEC_DIAG` (R82). -/
  opAtaExecDiag : Byte
  /-- `OP_ATA_PACKET` (R82). -/
  opAtaPacket : Byte
  /-- `OP_ATA_IDENTIFY_DEV` (R82). -/
  opAtaIdentifyDev : Byte
  /-- `OP_ATA_SET_FEATURES` (R82). -/
  opAtaSetFeatures : Byte
  /-- `OP_ATA_IDENTIFY` (R82). -/
  opAtaIdentify : Byte
  /-- `OP_PKT_TEST_UNIT` (R84). -/
  opPktTestUnit : Byte
  /-- `OP_PKT_REQ_STAT` (R84). -/
  opPktReqStat : Byte
  /-- `OP_PKT_REQ_MODE` (R84). -/
  opPktReqMode : Byte
  /-- `OP_PKT_SET_MODE` (R84). -/
  opPktSetMode : Byte
  /-- `OP_PKT_REQ_ERROR` (R84). -/
  opPktReqError : Byte
  /-- `OP_PKT_GET_TOC` (R84). -/
  opPktGetToc : Byte
  /-- `OP_PKT_REQ_SES` (R84). -/
  opPktReqSes : Byte
  /-- `OP_PKT_CD_OPEN` (R84). -/
  opPktCdOpen : Byte
  /-- `OP_PKT_CD_PLAY` (R84). -/
  opPktCdPlay : Byte
  /-- `OP_PKT_CD_SEEK` (R84). -/
  opPktCdSeek : Byte
  /-- `OP_PKT_CD_SCAN` (R84). -/
  opPktCdScan : Byte
  /-- `OP_PKT_CD_READ` (R84). -/
  opPktCdRead : Byte
  /-- `OP_PKT_CD_READ2` (R84). -/
  opPktCdRead2 : Byte
  /-- `OP_PKT_GET_SCD` (R84). -/
  opPktGetScd : Byte
  /-- `SK_ILLEGAL_REQUEST` (R100). -/
  skIllegalRequest : BitVec 4
  /-- `ASC_INVALID_COMMAND` (R100). -/
  ascInvalidCommand : Byte
  /-- `ASC_INVALID_FIELD` (R100). -/
  ascInvalidField : Byte
  /-- `ASC_MEDIUM_CHANGED` (R100). -/
  ascMediumChanged : Byte
  /-- `ASC_NO_MEDIUM` (R100). -/
  ascNoMedium : Byte
  /-- `SWAP_REJECT_SENSE` (R100, R180). -/
  swapRejectSense : Sense
  /-- `GETTOC_LEN_HI_BYTE` (R86): the packet byte that holds the high byte of GET_TOC's length. -/
  gettocLenHiByte : Nat
  /-- `PIO_BUF_BYTES` (R24): the capacity of the PIO buffer. -/
  pioBufBytes : Nat
  /-- `MODE_BLOCK_BYTES` (R30). -/
  modeBlockBytes : Nat
  /-- `MODE_BLOCK_RESET` (R30, R38). -/
  modeBlockReset : List Byte
  /-- `IDENTIFY_BYTES` (R186). -/
  identifyBytes : Nat
  /-- `IDENTIFY_BLOCK` (R186). -/
  identifyBlock : List Byte
  /-- `SIG_BYTECOUNT_LO` (R183, R188). -/
  sigByteCountLo : Byte
  /-- `SIG_BYTECOUNT_HI` (R183, R188). -/
  sigByteCountHi : Byte
  /-- `ERROR_RECORD_BYTES` (R205). -/
  errorRecordBytes : Nat
  /-- `SES_INFO_BYTES` (R207). -/
  sesInfoBytes : Nat
  /-- `SCD_BUF_BYTES` (R210). -/
  scdBufBytes : Nat
  /-- `HOME_FAD` (R236). -/
  homeFad : Fad
  /-- `IRQ_ON_PIO_READY` (R125, R126). -/
  irqOnPioReady : Bool
  /-- `DISC_CHANGE_SETS_UNIT_ATTENTION` (R342, R344). -/
  discChangeSetsUnitAttention : Bool
  /-- `MEDIA_ABSENT_POLICY` (R200, R216). -/
  mediaAbsentPolicy : MediaAbsentPolicy
  /-- `dmaTickCost`: a function from remaining bytes to ticks, written as the list of its known values (R5; no rule
  depends on it, decision D49). -/
  dmaTickCosts : List (Nat × Nat)
  /-- `SWAP_DELAY_TICKS` (R5; no rule depends on it, decision D49). -/
  swapDelayTicks : Nat
  /-- `sectorSizeOf` (R93), written as the list of CD_READ flag bytes (the `msf` bit cleared) that select `SECTOR_RAW`.
  -/
  rawSectorFlags : List Byte
  /-- `Media`: the backend that is mounted at power-up (R5, R35); the one mounted now is `State.media` (R342, R343). -/
  media : Media
  /-- The code of the disc status `busy` (R101). -/
  discStatusBusy : BitVec 4
  /-- The code of the disc status `paused` (R101). -/
  discStatusPaused : BitVec 4
  /-- The code of the disc status `standby` (R101). -/
  discStatusStandby : BitVec 4
  /-- The code of the disc status `playing` (R101). -/
  discStatusPlaying : BitVec 4
  /-- The code of the disc status `seeking` (R101). -/
  discStatusSeeking : BitVec 4
  /-- The code of the disc status `open` (R101). -/
  discStatusOpen : BitVec 4
  /-- The code of the disc status `nodisc` (R101). -/
  discStatusNodisc : BitVec 4
  /-- The code of the disc format of `AudioCd` (R101). -/
  discFormatAudioCd : BitVec 4
  /-- The code of the disc format of `DataCd` (R101). -/
  discFormatDataCd : BitVec 4
  /-- The code of the disc format of `CdXa` (R101). -/
  discFormatCdXa : BitVec 4
  /-- The code of the disc format of `CdExtra` (R101). -/
  discFormatCdExtra : BitVec 4
  /-- The code of the disc format of `Cdi` (R101). -/
  discFormatCdi : BitVec 4
  /-- The code of the disc format of `GdRom` (R101). -/
  discFormatGdRom : BitVec 4
  /-- The code of the disc format of `NoDisc` (R101). -/
  discFormatNoDisc : BitVec 4
  /-- The code of the disc format of `TrayOpen` (R101). -/
  discFormatTrayOpen : BitVec 4
  /-- The code of the audio status `Playing` (R102). -/
  audioCodePlaying : Byte
  /-- The code of the audio status `Paused` (R102). -/
  audioCodePaused : Byte
  /-- The code of the audio status `Terminated` (R102). -/
  audioCodeTerminated : Byte
  /-- The code of the audio status `NoInfo` (R102). -/
  audioCodeNoInfo : Byte
  /-- The code of `toHost` in the direction register of the DMA collaborator (R258). -/
  dmaToHost : BitVec 32
  deriving DecidableEq, Repr

/-- The seven ATA opcodes (R82). -/
def Cfg.ataOpcodes (c : Cfg) : List Byte :=
  [c.opAtaNop, c.opAtaSoftReset, c.opAtaExecDiag, c.opAtaPacket, c.opAtaIdentifyDev, c.opAtaSetFeatures,
   c.opAtaIdentify]

/-- The fourteen packet opcodes (R84). -/
def Cfg.packetOpcodes (c : Cfg) : List Byte :=
  [c.opPktTestUnit, c.opPktReqStat, c.opPktReqMode, c.opPktSetMode, c.opPktReqError, c.opPktGetToc, c.opPktReqSes,
   c.opPktCdOpen, c.opPktCdPlay, c.opPktCdSeek, c.opPktCdScan, c.opPktCdRead, c.opPktCdRead2, c.opPktGetScd]

/-- The constraints R5 states: opcodes of one layer pairwise distinct, `PORT_OFFSET` injective on (offset, direction), the
sizes as R5 bounds them, the blocks as long as their sizes say. That one (port, direction) may stand at two offsets, and
is then reached at both, is the model's choice (log entry 32). -/
abbrev Cfg.MeetsR5 (c : Cfg) : Prop :=
  c.ataOpcodes.Nodup ∧ c.packetOpcodes.Nodup ∧
  c.portMap.Pairwise (fun a b => ¬ (a.addr = b.addr ∧ a.dir = b.dir)) ∧
  c.pioBurstSectors * c.sectorRaw ≤ c.pioBufBytes ∧ c.tocBytes ≤ c.pioBufBytes ∧ c.pioBufBytes % 2 = 0 ∧
  1 ≤ c.dmaChunkBytes ∧ 1 ≤ c.cacheSectors ∧ c.modeWritableBytes ≤ c.modeBlockBytes ∧
  c.modeBlockReset.length = c.modeBlockBytes ∧
  c.identifyBytes % 2 = 0 ∧ c.identifyBlock.length = c.identifyBytes

/-- What the rules take for granted of the fields R5 leaves free (log entry 21): a packet is whole words that hold the
bytes R85 to R91 name, the length byte of GET_TOC is one of the two R86 names, a window has a sector and a sector a word,
a raw sector is not the shorter one, every reply fits the PIO buffer, and the fixed records have the bytes R202 and R205
list. -/
abbrev Cfg.Fits (c : Cfg) : Prop :=
  12 ≤ c.packetBytes ∧ c.packetBytes % 2 = 0 ∧ (c.gettocLenHiByte = 5 ∨ c.gettocLenHiByte = 3) ∧
  1 ≤ c.pioBurstSectors ∧ 2 ≤ c.sectorData ∧ c.sectorData ≤ c.sectorRaw ∧
  255 ≤ c.pioBufBytes ∧ c.identifyBytes ≤ c.pioBufBytes ∧
  c.statusRecordBytes ≤ 10 ∧ c.errorRecordBytes ≤ 10

/-- A configuration the statements speak of: the constraints of R5, and the bounds of log entry 21. -/
abbrev Cfg.Wf (c : Cfg) : Prop := c.MeetsR5 ∧ c.Fits

/-! ### Free values (opaque: nothing in Lean can evaluate them) -/

/-- The free value number `n`, byte `i` of it: what the spec calls a draw or `any value` (R12, R15, R35; file 93, U1,
U2, U6). The machine uses each number `n` once: `State.draws` counts them (log entry 9). -/
opaque Config.drawByte : Nat → Nat → Byte

/-- Whether backend `id` holds the answer to a query: a sector of the disc, a session or an area that exists (U6). What
a backend holds is out of scope by name (R35), so it is free. -/
opaque Config.onDisc : Nat → MediaQuery → Bool

/-- Byte `i` of the answer of backend `id` to a query it holds (R35): the same at every call, the backend is read-only. -/
opaque Config.mediaByte : Nat → MediaQuery → Nat → Byte

/-- `IRQ_ON_PIO_READY` of the reference configuration: OPEN, no default (R5, decision D21). -/
opaque Config.irqOnPioReady : Bool

/-- `IDENTIFY_BLOCK` of the reference configuration: OPEN, no reference contents (R5, decision D37). -/
opaque Config.identifyByte : Nat → Byte

/-- `dmaTickCost` where a configuration lists no value: OPEN (R5, decision D49); from remaining bytes to ticks. -/
opaque Config.dmaTickCost : Nat → Nat

/-- `SWAP_DELAY_TICKS` of the reference configuration: OPEN (R5, decision D49). -/
opaque Config.swapDelayTicks : Nat

/-- `dmaTickCost` of a configuration (R5): the listed value, else the free one. No rule depends on it (decision D49). -/
def Cfg.dmaTickCost (c : Cfg) (remaining : Nat) : Nat :=
  match c.dmaTickCosts.find? fun e => e.1 == remaining with
  | some e => e.2
  | none => Config.dmaTickCost remaining

end Sys2Proof
end

