-- ==== Sys2Proof/Machine/Reference.lean ====
section
/-! DEFINITION. The reference configuration: every field of `Cfg` at its document value or at the reference value the
spec gives (R5; file 93, P1, P22, P23). -/

namespace Sys2Proof

/-- The reference `PORT_OFFSET` (R51). The read side of 0x5F7088 is InterruptReason: SectorCount has no read address. -/
def referencePortMap : List PortEntry :=
  [⟨0x5F7080, .read, .data⟩, ⟨0x5F7080, .write, .data⟩,
   ⟨0x5F7084, .read, .error⟩, ⟨0x5F7084, .write, .features⟩,
   ⟨0x5F7088, .read, .interruptReason⟩, ⟨0x5F7088, .write, .sectorCount⟩,
   ⟨0x5F708C, .read, .sectorNumber⟩, ⟨0x5F708C, .write, .sectorNumber⟩,
   ⟨0x5F7090, .read, .byteCountLow⟩, ⟨0x5F7090, .write, .byteCountLow⟩,
   ⟨0x5F7094, .read, .byteCountHigh⟩, ⟨0x5F7094, .write, .byteCountHigh⟩,
   ⟨0x5F7098, .read, .driveSelect⟩, ⟨0x5F7098, .write, .driveSelect⟩,
   ⟨0x5F709C, .read, .status⟩, ⟨0x5F709C, .write, .command⟩,
   ⟨0x5F7018, .read, .altStatus⟩, ⟨0x5F7018, .write, .deviceControl⟩]

/-- The reference `MODE_BLOCK_RESET` (decision D36): ten setting bytes, then the strings `SE      `, `Rev 6.43`,
`990408`. -/
def referenceModeBlock : List Byte :=
  [0x00, 0x00, 0x00, 0x00, 0x00, 0xB4, 0x19, 0x00, 0x00, 0x08,
   0x53, 0x45, 0x20, 0x20, 0x20, 0x20, 0x20, 0x20,
   0x52, 0x65, 0x76, 0x20, 0x36, 0x2E, 0x34, 0x33,
   0x39, 0x39, 0x30, 0x34, 0x30, 0x38]

/-- The reference configuration (R5, R101, R102). `IRQ_ON_PIO_READY`, `IDENTIFY_BLOCK` and the durations are OPEN and
stay free (log entries 7, 22); the backend is that of the spec's start state S0, with no known answer (log entry 10). -/
def Cfg.ref : Cfg where
  packetBytes := 12
  sectorData := 2048
  sectorRaw := 2340
  sectorAudio := 2352
  pioBurstSectors := 27
  cacheSectors := 32
  dmaChunkBytes := 10240
  tocBytes := 408
  statusRecordBytes := 10
  modeWritableBytes := 10
  repeatInfinite := 15
  skNoSense := 0x0
  skNotReady := 0x2
  skUnitAttention := 0x6
  skAborted := 0xB
  portMap := referencePortMap
  opAtaNop := 0x00
  opAtaSoftReset := 0x08
  opAtaExecDiag := 0x90
  opAtaPacket := 0xA0
  opAtaIdentifyDev := 0xA1
  opAtaSetFeatures := 0xEF
  opAtaIdentify := 0xEC
  opPktTestUnit := 0x00
  opPktReqStat := 0x10
  opPktReqMode := 0x11
  opPktSetMode := 0x12
  opPktReqError := 0x13
  opPktGetToc := 0x14
  opPktReqSes := 0x15
  opPktCdOpen := 0x16
  opPktCdPlay := 0x20
  opPktCdSeek := 0x21
  opPktCdScan := 0x22
  opPktCdRead := 0x30
  opPktCdRead2 := 0x31
  opPktGetScd := 0x40
  skIllegalRequest := 0x5
  ascInvalidCommand := 0x20
  ascInvalidField := 0x24
  ascMediumChanged := 0x28
  ascNoMedium := 0x3A
  swapRejectSense := ⟨0x2, 0x04, 0x01⟩
  gettocLenHiByte := 5
  pioBufBytes := 65536
  modeBlockBytes := 32
  modeBlockReset := referenceModeBlock
  identifyBytes := 80
  identifyBlock := (List.range' 0 80).map Config.identifyByte
  sigByteCountLo := 0x14
  sigByteCountHi := 0xEB
  errorRecordBytes := 10
  sesInfoBytes := 6
  scdBufBytes := 100
  homeFad := 150
  irqOnPioReady := Config.irqOnPioReady
  discChangeSetsUnitAttention := true
  mediaAbsentPolicy := .ignore
  dmaTickCosts := []
  swapDelayTicks := Config.swapDelayTicks
  rawSectorFlags := [0xE6]
  media := { id := 0, discType := .gdRom, answers := [] }
  discStatusBusy := 0x0
  discStatusPaused := 0x1
  discStatusStandby := 0x2
  discStatusPlaying := 0x3
  discStatusSeeking := 0x4
  discStatusOpen := 0x6
  discStatusNodisc := 0x7
  discFormatAudioCd := 0x0
  discFormatDataCd := 0x1
  discFormatCdXa := 0x2
  discFormatCdExtra := 0x3
  discFormatCdi := 0x4
  discFormatGdRom := 0x8
  discFormatNoDisc := 0x0
  discFormatTrayOpen := 0x0
  audioCodePlaying := 0x11
  audioCodePaused := 0x12
  audioCodeTerminated := 0x13
  audioCodeNoInfo := 0x15
  dmaToHost := 1

end Sys2Proof
end

