-- ==== Sys2Proof/Syntax.lean ====
section
/-! DEFINITION. The operations of the device: one constructor of `Instr` per row of spec/opcode_table.json, the
operands they carry, and the inputs the agents present (R2, R97). -/

namespace Sys2Proof

/-- The width of a host access (R52, R53). -/
inductive Width where
  /-- 8 bits (`R8`, `W8`). -/
  | w8
  /-- 16 bits (`R16`, `W16`). -/
  | w16
  /-- 32 bits or wider (R53): no port takes it. -/
  | w32
  deriving DecidableEq, Repr

/-- Three address bytes of a packet (R92): a 24-bit FAD, most significant byte first, or minutes, seconds, frames. -/
structure Addr3 where
  b0 : Byte
  b1 : Byte
  b2 : Byte
  deriving DecidableEq, Repr

/-- The flag byte of CD_READ and CD_READ2, split as R88 splits it. -/
structure ReadFlags where
  msf : Bool
  expectedType : BitVec 3
  other : Bool
  data : Bool
  subheader : Bool
  header : Bool
  deriving DecidableEq, Repr

/-- The operations, one constructor per row of spec/opcode_table.json. A port access carries its width and, for a
write, the value on the bus. -/
inductive Instr where
  -- format ATA (R82)
  | nop
  | softReset
  | executeDiagnostic
  | packet
  | identifyDevice
  | setFeatures
  | identify
  | ataUnknown (opcode : Byte)
  | ataSwapReject
  -- format PKT12 (R84, operands R85 to R91)
  | testUnit
  | reqStat (offset length : Byte)
  | reqMode (offset length : Byte)
  | setMode (offset length : Byte)
  | reqError (length : Byte)
  | getToc (area : Bool) (req : Half)
  | reqSes (session length : Byte)
  | cdOpen
  | cdPlay (ptype : BitVec 3) (start : Addr3) (rep : BitVec 4) (stop : Addr3)
  | cdSeek (ptype : BitVec 4) (target : Addr3)
  | cdScan
  | cdRead (flags : ReadFlags) (start : Addr3) (count : BitVec 24)
  | cdRead2 (flags : ReadFlags) (start : Addr3) (count : Half)
  | getScd (format : BitVec 4) (alloc : Half)
  | pktUnknown (opcode : Byte)
  | cdPlayFad (start : Addr3) (rep : BitVec 4) (stop : Addr3)
  | cdPlayMsf (start : Addr3) (rep : BitVec 4) (stop : Addr3)
  | cdPlayResume
  | getScdRaw (alloc : Half)
  | getScdQ (alloc : Half)
  | getScdMcn (alloc : Half)
  | pktParamError
  | pktMediaAbsent
  -- formats PORT_R and PORT_W (R51, R150 to R164)
  | r16Data (w : Width)
  | w16Data (w : Width) (v : BitVec 32)
  | r8Error (w : Width)
  | w8Features (w : Width) (v : BitVec 32)
  | r8InterruptReason (w : Width)
  | r8SectorCount (w : Width)
  | w8SectorCount (w : Width) (v : BitVec 32)
  | r8SectorNumber (w : Width)
  | w8SectorNumber (w : Width) (v : BitVec 32)
  | r8ByteCountLow (w : Width)
  | w8ByteCountLow (w : Width) (v : BitVec 32)
  | r8ByteCountHigh (w : Width)
  | w8ByteCountHigh (w : Width) (v : BitVec 32)
  | r8DriveSelect (w : Width)
  | w8DriveSelect (w : Width) (v : BitVec 32)
  | r8Status (w : Width)
  | w8Command (w : Width) (v : BitVec 32)
  | r8AltStatus (w : Width)
  | w8DeviceControl (w : Width) (v : BitVec 32)
  -- format AGENT (R2, R252 to R254, R280, R340 to R344)
  | dmaStart
  | dmaEnable (v : Bool)
  | tickDma
  | tickAudio
  | tickSwap
  | eventHardReset
  | eventTrayOpen (media : Media)
  | eventTrayClose (media : Media)
  | eventSwapBegin (media : Media)
  deriving DecidableEq, Repr

/-- What an agent presents to the device (R2, R97): a host access at a bus address, a host write of the DMA
collaborator's registers, a callback tick, or an environment event. A disc-change event carries the backend that is
mounted from then on (R342, R343). -/
inductive Input where
  | read (w : Width) (addr : Addr)
  | write (w : Width) (addr : Addr) (v : BitVec 32)
  | dmaSet (addr length direction : BitVec 32)
  | dmaStart
  | dmaEnable (v : Bool)
  | tickDma
  | tickAudio
  | tickSwap
  | hardReset
  | trayOpen (media : Media)
  | trayClose (media : Media)
  | swapBegin (media : Media)
  deriving DecidableEq, Repr

/-- The formats of spec/opcode_table.json. -/
inductive Format where
  | ata | pkt12 | portR | portW | agent
  deriving DecidableEq, Repr

/-- What a decoder is given (R80, R96): a byte written to the Command port, the bytes of a packet, or an input of an
agent. The format is told from where the bits arrive, not from the bits. -/
inductive Frame where
  | ata (command : Byte)
  | packet (bytes : List Byte)
  | bus (input : Input)
  deriving DecidableEq, Repr

/-- The format of a frame. -/
def Frame.format : Frame → Format
  | .ata _ => .ata
  | .packet _ => .pkt12
  | .bus (.read _ _) => .portR
  | .bus (.write _ _ _) => .portW
  | .bus _ => .agent

/-- The format of an operation, as its row of spec/opcode_table.json names it. -/
def Instr.format : Instr → Format
  | .nop | .softReset | .executeDiagnostic | .packet | .identifyDevice | .setFeatures | .identify | .ataUnknown _
  | .ataSwapReject => .ata
  | .testUnit | .reqStat _ _ | .reqMode _ _ | .setMode _ _ | .reqError _ | .getToc _ _ | .reqSes _ _ | .cdOpen
  | .cdPlay _ _ _ _ | .cdSeek _ _ | .cdScan | .cdRead _ _ _ | .cdRead2 _ _ _ | .getScd _ _ | .pktUnknown _
  | .cdPlayFad _ _ _ | .cdPlayMsf _ _ _ | .cdPlayResume | .getScdRaw _ | .getScdQ _ | .getScdMcn _ | .pktParamError
  | .pktMediaAbsent => .pkt12
  | .r16Data _ | .r8Error _ | .r8InterruptReason _ | .r8SectorCount _ | .r8SectorNumber _ | .r8ByteCountLow _
  | .r8ByteCountHigh _ | .r8DriveSelect _ | .r8Status _ | .r8AltStatus _ => .portR
  | .w16Data _ _ | .w8Features _ _ | .w8SectorCount _ _ | .w8SectorNumber _ _ | .w8ByteCountLow _ _
  | .w8ByteCountHigh _ _ | .w8DriveSelect _ _ | .w8Command _ _ | .w8DeviceControl _ _ => .portW
  | .dmaStart | .dmaEnable _ | .tickDma | .tickAudio | .tickSwap | .eventHardReset | .eventTrayOpen _
  | .eventTrayClose _ | .eventSwapBegin _ => .agent

end Sys2Proof
end

