-- ==== Sys2Proof/WellFormed.lean ====
section
/-! DEFINITION. Which operations are well formed: the checks on operands that the types of `Instr` do not make. -/

namespace Sys2Proof

/-- A value driven on the bus fits the width of the access (R52). -/
def Width.fits : Width → BitVec 32 → Bool
  | .w8, v => decide (v.toNat < 256)
  | .w16, v => decide (v.toNat < 65536)
  | .w32, _ => true

/-- Well-formed operations. The words of CD_PLAY with `ptype` 1, 2 or 7 and of GET_SCD with `format` 0, 1 or 2 are
those of the variant rows, so the parent rows keep the other codes (log entry 17); an unknown opcode is one the tables
R82 and R84 do not list; a written value fits its width; after a tray event the backend reports what R342 says. -/
def WellFormed (c : Cfg) : Instr → Bool
  | .ataUnknown op => !c.ataOpcodes.contains op
  | .pktUnknown op => !c.packetOpcodes.contains op
  | .cdPlay ptype _ _ _ => ptype != 1 && ptype != 2 && ptype != 7
  | .getScd format _ => format != 0 && format != 1 && format != 2
  | .w16Data w v | .w8Features w v | .w8SectorCount w v | .w8SectorNumber w v | .w8ByteCountLow w v
  | .w8ByteCountHigh w v | .w8DriveSelect w v | .w8Command w v | .w8DeviceControl w v => w.fits v
  | .eventTrayOpen m => m.discType == .trayOpen
  | .eventTrayClose m => m.discType != .trayOpen
  | _ => true

end Sys2Proof
end

