-- ==== Sys2Proof/Decode.lean ====
section
/-! DEFINITION. The decoder, total on any frame, and the encoder (R80 to R97). The opcodes and the port map come from
`Cfg`; the operand positions are those of R85 to R91. -/

namespace Sys2Proof

/-! ### Bytes and bit fields -/

/-- Byte `i` of a packet; a packet has `PACKET_BYTES` of them (R23, R80). -/
def packetByte (p : List Byte) (i : Nat) : Byte := p.getD i 0

/-- Three consecutive packet bytes as an address (R92). -/
def packetAddr (p : List Byte) (i : Nat) : Addr3 := ⟨packetByte p i, packetByte p (i + 1), packetByte p (i + 2)⟩

/-- The flag byte of CD_READ and CD_READ2 split into its fields (R88). -/
def ReadFlags.ofByte (b : Byte) : ReadFlags where
  msf := b.getLsbD 0
  expectedType := b.extractLsb' 1 3
  other := b.getLsbD 4
  data := b.getLsbD 5
  subheader := b.getLsbD 6
  header := b.getLsbD 7

/-- The fields of a flag byte put together again (R88). -/
def ReadFlags.toByte (f : ReadFlags) : Byte :=
  (BitVec.ofBool f.header ++ BitVec.ofBool f.subheader ++ BitVec.ofBool f.data ++ BitVec.ofBool f.other ++
    f.expectedType ++ BitVec.ofBool f.msf : BitVec 8)

/-! ### ATA commands (R80, R82) -/

/-- The ATA command a command byte selects; every byte that R82 does not list is the unknown command (R95). -/
def decodeAta (c : Cfg) (b : Byte) : Instr :=
  if b = c.opAtaNop then .nop
  else if b = c.opAtaSoftReset then .softReset
  else if b = c.opAtaExecDiag then .executeDiagnostic
  else if b = c.opAtaPacket then .packet
  else if b = c.opAtaIdentifyDev then .identifyDevice
  else if b = c.opAtaSetFeatures then .setFeatures
  else if b = c.opAtaIdentify then .identify
  else .ataUnknown b

/-! ### Packet commands (R80, R83 to R91) -/

/-- GET_TOC's requested length: low byte at index 4, high byte where `GETTOC_LEN_HI_BYTE` says (R86). -/
def tocRequest (c : Cfg) (p : List Byte) : Half := packetByte p c.gettocLenHiByte ++ packetByte p 4

/-- CD_PLAY, with the variant its parameter type selects (R90, R233). -/
def decodePlay (p : List Byte) : Instr :=
  let start := packetAddr p 2
  let rep := (packetByte p 6).extractLsb' 0 4
  let stop := packetAddr p 8
  let ptype := (packetByte p 1).extractLsb' 0 3
  if ptype = 1 then .cdPlayFad start rep stop
  else if ptype = 2 then .cdPlayMsf start rep stop
  else if ptype = 7 then .cdPlayResume
  else .cdPlay ptype start rep stop

/-- GET_SCD, with the variant its format selects (R87, R210). -/
def decodeSubcode (p : List Byte) : Instr :=
  let alloc : Half := packetByte p 3 ++ packetByte p 4
  let format := (packetByte p 1).extractLsb' 0 4
  if format = 0 then .getScdRaw alloc
  else if format = 1 then .getScdQ alloc
  else if format = 2 then .getScdMcn alloc
  else .getScd format alloc

/-- The packet command twelve bytes select; every opcode that R84 does not list is the unknown opcode (R95). Bits and
bytes a command does not name are ignored (R83). -/
def decodePacket (c : Cfg) (p : List Byte) : Instr :=
  let op := packetByte p 0
  if op = c.opPktTestUnit then .testUnit
  else if op = c.opPktReqStat then .reqStat (packetByte p 2) (packetByte p 4)
  else if op = c.opPktReqMode then .reqMode (packetByte p 2) (packetByte p 4)
  else if op = c.opPktSetMode then .setMode (packetByte p 2) (packetByte p 4)
  else if op = c.opPktReqError then .reqError (packetByte p 4)
  else if op = c.opPktGetToc then .getToc ((packetByte p 1).getLsbD 0) (tocRequest c p)
  else if op = c.opPktReqSes then .reqSes (packetByte p 2) (packetByte p 4)
  else if op = c.opPktCdOpen then .cdOpen
  else if op = c.opPktCdPlay then decodePlay p
  else if op = c.opPktCdSeek then .cdSeek ((packetByte p 1).extractLsb' 0 4) (packetAddr p 2)
  else if op = c.opPktCdScan then .cdScan
  else if op = c.opPktCdRead then
    .cdRead (.ofByte (packetByte p 1)) (packetAddr p 2) (packetByte p 8 ++ packetByte p 9 ++ packetByte p 10)
  else if op = c.opPktCdRead2 then
    .cdRead2 (.ofByte (packetByte p 1)) (packetAddr p 2) (packetByte p 6 ++ packetByte p 7)
  else if op = c.opPktGetScd then decodeSubcode p
  else .pktUnknown op

/-! ### Host accesses and the other inputs (R51, R54, R97) -/

/-- Frames that are no operation of the opcode table, rejected by name. -/
inductive Undecoded where
  /-- A host access whose address and direction `PORT_OFFSET` maps to no port (R54). -/
  | unmappedAccess (w : Width) (d : Dir)
  /-- A host write of the DMA collaborator's address, length and direction registers (R33, R97 `DMA.set`), for which
  the opcode table has no row. -/
  | dmaSet (addr length direction : BitVec 32)
  /-- A packet that does not have `PACKET_BYTES` bytes (R80). -/
  | packetLength (n : Nat)
  deriving DecidableEq, Repr

/-- The port an address and a direction reach (R51). -/
def lookupPort (c : Cfg) (addr : Addr) (d : Dir) : Option Port :=
  (c.portMap.find? fun e => e.addr == addr && e.dir == d).map (·.port)

/-- The read operation of a port (R151 to R163); write-only roles have none. -/
def readOf (w : Width) : Port → Option Instr
  | .data => some (.r16Data w)
  | .error => some (.r8Error w)
  | .interruptReason => some (.r8InterruptReason w)
  | .sectorCount => some (.r8SectorCount w)
  | .sectorNumber => some (.r8SectorNumber w)
  | .byteCountLow => some (.r8ByteCountLow w)
  | .byteCountHigh => some (.r8ByteCountHigh w)
  | .driveSelect => some (.r8DriveSelect w)
  | .status => some (.r8Status w)
  | .altStatus => some (.r8AltStatus w)
  | .features | .command | .deviceControl => none

/-- The write operation of a port (R152 to R164); read-only roles have none. -/
def writeOf (w : Width) (v : BitVec 32) : Port → Option Instr
  | .data => some (.w16Data w v)
  | .features => some (.w8Features w v)
  | .sectorCount => some (.w8SectorCount w v)
  | .sectorNumber => some (.w8SectorNumber w v)
  | .byteCountLow => some (.w8ByteCountLow w v)
  | .byteCountHigh => some (.w8ByteCountHigh w v)
  | .driveSelect => some (.w8DriveSelect w v)
  | .command => some (.w8Command w v)
  | .deviceControl => some (.w8DeviceControl w v)
  | .error | .interruptReason | .status | .altStatus => none

/-- An operation if there is one, else the name of what there is instead. -/
def orElseUndecoded (o : Option Instr) (u : Undecoded) : Except Undecoded Instr :=
  match o with
  | some i => .ok i
  | none => .error u

/-- The operation an agent's input asks for (R51, R97, R165). -/
def decodeInput (c : Cfg) : Input → Except Undecoded Instr
  | .read w a => orElseUndecoded ((lookupPort c a .read).bind (readOf w)) (.unmappedAccess w .read)
  | .write w a v => orElseUndecoded ((lookupPort c a .write).bind (writeOf w v)) (.unmappedAccess w .write)
  | .dmaSet a l d => .error (.dmaSet a l d)
  | .dmaStart => .ok .dmaStart
  | .dmaEnable v => .ok (.dmaEnable v)
  | .tickDma => .ok .tickDma
  | .tickAudio => .ok .tickAudio
  | .tickSwap => .ok .tickSwap
  | .hardReset => .ok .eventHardReset
  | .trayOpen m => .ok (.eventTrayOpen m)
  | .trayClose m => .ok (.eventTrayClose m)
  | .swapBegin m => .ok (.eventSwapBegin m)

/-- The decoder, total on every frame (R80, R96). -/
def decode (c : Cfg) : Frame → Except Undecoded Instr
  | .ata b => .ok (decodeAta c b)
  | .packet p => if p.length = c.packetBytes then .ok (decodePacket c p) else .error (.packetLength p.length)
  | .bus i => decodeInput c i

/-! ### The encoder -/

/-- The address that reaches a port in a direction, if `PORT_OFFSET` has one (R51); the first one listed, if it has two
(log entry 32). -/
def portAddr (c : Cfg) (p : Port) (d : Dir) : Option Addr :=
  (c.portMap.find? fun e => e.port == p && e.dir == d).map (·.addr)

/-- A read of a port as an input. -/
def encodeRead (c : Cfg) (p : Port) (w : Width) : Option Frame :=
  (portAddr c p .read).map fun a => .bus (.read w a)

/-- A write of a port as an input. -/
def encodeWrite (c : Cfg) (p : Port) (w : Width) (v : BitVec 32) : Option Frame :=
  (portAddr c p .write).map fun a => .bus (.write w a v)

/-- A packet of an opcode and its operand bytes (R83); the bytes beyond those R85 to R91 name are 0. -/
def packetFrame (c : Cfg) (op b1 b2 b3 b4 b5 b6 b7 b8 b9 b10 : Byte) : Option Frame :=
  some (.packet
    (op :: b1 :: b2 :: b3 :: b4 :: b5 :: b6 :: b7 :: b8 :: b9 :: b10 :: List.replicate (c.packetBytes - 11) 0))

/-- The packet of a CD_PLAY (R90). -/
def playFrame (c : Cfg) (ptype : BitVec 3) (start : Addr3) (rep : BitVec 4) (stop : Addr3) : Option Frame :=
  packetFrame c c.opPktCdPlay (ptype.setWidth 8) start.b0 start.b1 start.b2 0 (rep.setWidth 8) 0 stop.b0 stop.b1 stop.b2

/-- The packet of a GET_SCD (R87). -/
def subcodeFrame (c : Cfg) (format : BitVec 4) (alloc : Half) : Option Frame :=
  packetFrame c c.opPktGetScd (format.setWidth 8) 0 (alloc.extractLsb' 8 8) (alloc.extractLsb' 0 8) 0 0 0 0 0 0

/-- The frame of an operation: the words the spec gives it, with every bit it does not name 0. The condition rows
(ATA_SWAP_REJECT, PKT_PARAM_ERROR, PKT_MEDIA_ABSENT) have no words of their own, and a port that `PORT_OFFSET` leaves
out has no address (log entry 17). -/
def encode (c : Cfg) : Instr → Option Frame
  | .nop => some (.ata c.opAtaNop)
  | .softReset => some (.ata c.opAtaSoftReset)
  | .executeDiagnostic => some (.ata c.opAtaExecDiag)
  | .packet => some (.ata c.opAtaPacket)
  | .identifyDevice => some (.ata c.opAtaIdentifyDev)
  | .setFeatures => some (.ata c.opAtaSetFeatures)
  | .identify => some (.ata c.opAtaIdentify)
  | .ataUnknown b => some (.ata b)
  | .ataSwapReject => none
  | .testUnit => packetFrame c c.opPktTestUnit 0 0 0 0 0 0 0 0 0 0
  | .reqStat off len => packetFrame c c.opPktReqStat 0 off 0 len 0 0 0 0 0 0
  | .reqMode off len => packetFrame c c.opPktReqMode 0 off 0 len 0 0 0 0 0 0
  | .setMode off len => packetFrame c c.opPktSetMode 0 off 0 len 0 0 0 0 0 0
  | .reqError len => packetFrame c c.opPktReqError 0 0 0 len 0 0 0 0 0 0
  | .getToc area req =>
    let hi := req.extractLsb' 8 8
    let lo := req.extractLsb' 0 8
    let b1 : Byte := (BitVec.ofBool area).setWidth 8
    if c.gettocLenHiByte = 3 then packetFrame c c.opPktGetToc b1 0 hi lo 0 0 0 0 0 0
    else packetFrame c c.opPktGetToc b1 0 0 lo hi 0 0 0 0 0
  | .reqSes ses len => packetFrame c c.opPktReqSes 0 ses 0 len 0 0 0 0 0 0
  | .cdOpen => packetFrame c c.opPktCdOpen 0 0 0 0 0 0 0 0 0 0
  | .cdPlay ptype start rep stop => playFrame c ptype start rep stop
  | .cdSeek ptype target =>
    packetFrame c c.opPktCdSeek (ptype.setWidth 8) target.b0 target.b1 target.b2 0 0 0 0 0 0
  | .cdScan => packetFrame c c.opPktCdScan 0 0 0 0 0 0 0 0 0 0
  | .cdRead f start count =>
    packetFrame c c.opPktCdRead f.toByte start.b0 start.b1 start.b2 0 0 0 (count.extractLsb' 16 8)
      (count.extractLsb' 8 8) (count.extractLsb' 0 8)
  | .cdRead2 f start count =>
    packetFrame c c.opPktCdRead2 f.toByte start.b0 start.b1 start.b2 0 (count.extractLsb' 8 8) (count.extractLsb' 0 8)
      0 0 0
  | .getScd format alloc => subcodeFrame c format alloc
  | .pktUnknown op => packetFrame c op 0 0 0 0 0 0 0 0 0 0
  | .cdPlayFad start rep stop => playFrame c 1 start rep stop
  | .cdPlayMsf start rep stop => playFrame c 2 start rep stop
  | .cdPlayResume => playFrame c 7 ⟨0, 0, 0⟩ 0 ⟨0, 0, 0⟩
  | .getScdRaw alloc => subcodeFrame c 0 alloc
  | .getScdQ alloc => subcodeFrame c 1 alloc
  | .getScdMcn alloc => subcodeFrame c 2 alloc
  | .pktParamError => none
  | .pktMediaAbsent => none
  | .r16Data w => encodeRead c .data w
  | .w16Data w v => encodeWrite c .data w v
  | .r8Error w => encodeRead c .error w
  | .w8Features w v => encodeWrite c .features w v
  | .r8InterruptReason w => encodeRead c .interruptReason w
  | .r8SectorCount w => encodeRead c .sectorCount w
  | .w8SectorCount w v => encodeWrite c .sectorCount w v
  | .r8SectorNumber w => encodeRead c .sectorNumber w
  | .w8SectorNumber w v => encodeWrite c .sectorNumber w v
  | .r8ByteCountLow w => encodeRead c .byteCountLow w
  | .w8ByteCountLow w v => encodeWrite c .byteCountLow w v
  | .r8ByteCountHigh w => encodeRead c .byteCountHigh w
  | .w8ByteCountHigh w v => encodeWrite c .byteCountHigh w v
  | .r8DriveSelect w => encodeRead c .driveSelect w
  | .w8DriveSelect w v => encodeWrite c .driveSelect w v
  | .r8Status w => encodeRead c .status w
  | .w8Command w v => encodeWrite c .command w v
  | .r8AltStatus w => encodeRead c .altStatus w
  | .w8DeviceControl w v => encodeWrite c .deviceControl w v
  | .dmaStart => some (.bus .dmaStart)
  | .dmaEnable v => some (.bus (.dmaEnable v))
  | .tickDma => some (.bus .tickDma)
  | .tickAudio => some (.bus .tickAudio)
  | .tickSwap => some (.bus .tickSwap)
  | .eventHardReset => some (.bus .hardReset)
  | .eventTrayOpen m => some (.bus (.trayOpen m))
  | .eventTrayClose m => some (.bus (.trayClose m))
  | .eventSwapBegin m => some (.bus (.swapBegin m))

/-! ### Words numbered as spec/opcode_table.json numbers them -/

/-- Byte `i` of a number. -/
def numberByte (w i : Nat) : Byte := BitVec.ofNat 8 (w >>> (8 * i))

/-- The packet bytes of a number, the first in its low byte. -/
def numberPacket (c : Cfg) (w : Nat) : List Byte := (List.range' 0 c.packetBytes).map (numberByte w)

/-- The width a port is accessed with in its row's mnemonic: 16 bits for Data, 8 for the others (R51). -/
def portWidth : Port → Width
  | .data => .w16
  | _ => .w8

/-- The frame a number of `nbits` bits of the opcode table stands for (log entry 16). A number of 32 bits is a bus
address and is taken as a read; one of 8 bits is a command byte if R82 lists it or R84 does not, else the first byte
of a packet of zeros; any other number is a packet. -/
def tableFrame (c : Cfg) (nbits w : Nat) : Frame :=
  if nbits = 32 then
    let a : Addr := BitVec.ofNat 32 w
    match lookupPort c a .read with
    | some p => .bus (.read (portWidth p) a)
    | none => .bus (.read .w8 a)
  else if nbits = 8 then
    let b := numberByte w 0
    if c.ataOpcodes.contains b || !c.packetOpcodes.contains b then .ata b else .packet (numberPacket c w)
  else .packet (numberPacket c w)

/-- The operation the decoder reads from a number of the opcode table, under the reference configuration. -/
def decodeTableWord (nbits w : Nat) : Option Instr :=
  match decode Cfg.ref (tableFrame Cfg.ref nbits w) with
  | .ok i => some i
  | .error _ => none

end Sys2Proof
end

