-- ==== Sys2Proof/Machine/Drive.lean ====
section
/-! DEFINITION. The types of `DriveState`, the device's own record (R10): one field for each piece of R11 to R32. -/

namespace Sys2Proof.Machine

/-- The protocol states (R11). -/
inductive Proto where
  | waitCommand | processAtaCommand | waitPacket | processPacketCommand | pioSendData | pioGetData | readSectorPio
  | readSectorDma | processSetMode | pioEnd | processPacketDone
  deriving DecidableEq, Repr

/-- The stored fields of the Status register (R12). `seekComplete` and bits 2 and 1 are not stored: a read draws them. -/
structure Status where
  busy : Bool
  ready : Bool
  drq : Bool
  check : Bool
  deviceFault : Bool
  deriving DecidableEq, Repr

/-- The stored flags of the Error register (R14). The high nibble is not stored: a read shows the sense key. -/
structure ErrorFlags where
  ili : Bool
  eom : Bool
  abort : Bool
  mcr : Bool
  deriving DecidableEq, Repr

/-- The packet command buffer (R23): `PACKET_BYTES` bytes and the number of words received. -/
structure PacketBuffer where
  bytes : List Byte
  index : Nat
  deriving DecidableEq, Repr

/-- The PIO transfer buffer (R24). `index` and `size` count 16-bit words. `data` is listed up to the highest byte ever
stored since reset; bytes beyond the list hold 0 (log entry 13). -/
structure PioBuffer where
  data : List Byte
  index : Nat
  size : Nat
  nextState : Proto
  deriving DecidableEq, Repr

/-- The two sector sizes of a read request (R26): `SECTOR_DATA` and `SECTOR_RAW`. -/
inductive SectorSize where
  | data | raw
  deriving DecidableEq, Repr

/-- The read request (R26). -/
structure ReadRequest where
  startSector : Fad
  remaining : BitVec 32
  sectorSize : SectorSize
  deriving DecidableEq, Repr

/-- The sector cache (R27): `rd` is the next byte to drain, `avail` how many are left. `bytes` is listed as `data` of
`PioBuffer` is (log entry 13). -/
structure SectorCache where
  bytes : List Byte
  rd : Nat
  avail : Nat
  deriving DecidableEq, Repr

/-- The status of the audio player (R28). -/
inductive AudioStatus where
  | noInfo | playing | paused | terminated
  deriving DecidableEq, Repr

/-- The audio player (R28). -/
structure CddaPlayer where
  status : AudioStatus
  currentFad : Fad
  startFad : Fad
  endFad : Fad
  repeatCount : BitVec 4
  deriving DecidableEq, Repr

/-- The device (R10): exactly the fields of R11 to R32, and what a save state holds (R39). -/
structure DriveState where
  /-- R11 -/
  state : Proto
  /-- R12 -/
  status : Status
  /-- R14 -/
  error : ErrorFlags
  /-- `ireason.cod` (R15) -/
  ireasonCod : Bool
  /-- R16 -/
  features : Byte
  /-- R17 -/
  sectorCount : Byte
  /-- R18: disc status in bits 3:0, disc format in bits 7:4 -/
  sectorNumber : Byte
  /-- R19 -/
  byteCount : BitVec 16
  /-- R20 -/
  driveSelect : Byte
  /-- R21 -/
  ataCommand : Byte
  /-- R22 -/
  sense : Sense
  /-- R23 -/
  packet : PacketBuffer
  /-- R24 -/
  pio : PioBuffer
  /-- R26 -/
  rr : ReadRequest
  /-- R27 -/
  cache : SectorCache
  /-- R28 -/
  cdda : CddaPlayer
  /-- R29 -/
  discType : DiscType
  /-- R30 -/
  modeBlock : List Byte
  /-- R30 -/
  setModeOffset : Nat
  /-- R31 -/
  discSwapPending : Bool
  /-- R32 -/
  dmaScheduled : Bool
  deriving DecidableEq, Repr

end Sys2Proof.Machine
end

