-- ==== Sys2Proof/Machine/Codes.lean ====
section
/-! DEFINITION. The code tables (R101, R102), whose codes are fields of `Cfg` (file 93, U7), and what the names stand for. -/

namespace Sys2Proof.Machine

/-- The disc statuses (R18). -/
inductive DiscStatus where
  | busy | paused | standby | playing | seeking | open | nodisc
  deriving DecidableEq, Repr

/-- Disc status codes, the low nibble of Sector Number (R101). -/
def discStatusCode (c : Cfg) : DiscStatus → BitVec 4
  | .busy => c.discStatusBusy
  | .paused => c.discStatusPaused
  | .standby => c.discStatusStandby
  | .playing => c.discStatusPlaying
  | .seeking => c.discStatusSeeking
  | .open => c.discStatusOpen
  | .nodisc => c.discStatusNodisc

/-- Disc format codes, the high nibble of Sector Number (R101). -/
def discFormatCode (c : Cfg) : DiscType → BitVec 4
  | .audioCd => c.discFormatAudioCd
  | .dataCd => c.discFormatDataCd
  | .cdXa => c.discFormatCdXa
  | .cdExtra => c.discFormatCdExtra
  | .cdi => c.discFormatCdi
  | .gdRom => c.discFormatGdRom
  | .noDisc => c.discFormatNoDisc
  | .trayOpen => c.discFormatTrayOpen

/-- Audio status codes, byte 1 of every subcode record (R102). -/
def audioStatusCode (c : Cfg) : AudioStatus → Byte
  | .playing => c.audioCodePlaying
  | .paused => c.audioCodePaused
  | .terminated => c.audioCodeTerminated
  | .noInfo => c.audioCodeNoInfo

/-- Bytes of a sector (R26; `SECTOR_DATA`, `SECTOR_RAW` of R5). -/
def sectorBytes (c : Cfg) : SectorSize → Nat
  | .data => c.sectorData
  | .raw => c.sectorRaw

/-- A disc is in the drive: neither `NoDisc` nor `TrayOpen` (R29). -/
def discPresent : DiscType → Bool
  | .noDisc | .trayOpen => false
  | _ => true

/-- The disc status of a drive that has just been reset or changed discs: `nodisc`, `open`, or with a disc present the
status given (R38, R183, R344). -/
def discStatusFor (t : DiscType) (withDisc : DiscStatus) : DiscStatus :=
  match t with
  | .noDisc => .nodisc
  | .trayOpen => .open
  | _ => withDisc

/-- The Sector Number register of a format and a status (R18). -/
def sectorNumberOf (format status : BitVec 4) : Byte := format ++ status

end Sys2Proof.Machine
end

