-- ==== Sys2Proof/Machine/Reset.lean ====
section
/-! DEFINITION. The device right after power-up or hard reset: the table of R38. -/

namespace Sys2Proof.Machine

/-- Every field of `DriveState` at its reset value (R38, R340), with the disc type the backend reports at the reset. -/
def resetDrive (c : Cfg) (disc : DiscType) : DriveState where
  state := .waitCommand
  status := { busy := false, ready := true, drq := false, check := false, deviceFault := false }
  error := { ili := false, eom := false, abort := false, mcr := false }
  ireasonCod := false
  features := 0
  sectorCount := 0
  sectorNumber := sectorNumberOf (discFormatCode c disc) (discStatusCode c (discStatusFor disc .standby))
  byteCount := 0
  driveSelect := 0
  ataCommand := 0
  sense := ⟨c.skNoSense, 0, 0⟩
  packet := { bytes := List.replicate c.packetBytes 0, index := 0 }
  pio := { data := [], index := 0, size := 0, nextState := .pioEnd }
  rr := { startSector := 0, remaining := 0, sectorSize := .data }
  cache := { bytes := [], rd := 0, avail := 0 }
  cdda := { status := .noInfo, currentFad := 0, startFad := 0, endFad := 0, repeatCount := 0 }
  discType := disc
  modeBlock := c.modeBlockReset
  setModeOffset := 0
  discSwapPending := false
  dmaScheduled := false

end Sys2Proof.Machine
end

