-- ==== Sys2Proof/Machine/State.lean ====
section
/-! DEFINITION. The whole machine as plain data: the device (R10), the collaborators it reads or writes (R33, R34,
R60), the parameters of the step relation (R5, R35), and the model's own fields (inputs, outputs, draws). -/

namespace Sys2Proof.Machine

/-- The two interrupt lines (R34, R309). -/
inductive Line where
  | commandComplete | dmaComplete
  deriving DecidableEq, Repr

/-- The pending bits the interrupt collaborator keeps, one per line (R309). -/
structure IrqPending where
  commandComplete : Bool
  dmaComplete : Bool
  deriving DecidableEq, Repr

/-- The registers of the bus-mastering DMA collaborator (R33). -/
structure DmaRegs where
  addr : BitVec 32
  length : BitVec 32
  transferred : BitVec 32
  cursor : BitVec 32
  direction : BitVec 32
  start : Bool
  enable : Bool
  deriving DecidableEq, Repr

/-- What a step puts out (R3): a read value, interrupt lines raised and cancelled, a store to host memory, an audio
sector; and the mark of the outcome `ignored`, which no agent sees (log entry 4). -/
inductive Event where
  | readValue (w : Width) (v : BitVec 16)
  | raise (l : Line)
  | cancel (l : Line)
  | hostMemWrite (addr : Addr) (bytes : List Byte)
  | audioSector (bytes : List Byte)
  | ignored
  deriving DecidableEq, Repr

/-- The state of the machine. -/
structure State where
  /-- The device (R10). -/
  drive : DriveState
  /-- The registers of the DMA collaborator (R33). -/
  dma : DmaRegs
  /-- The pending bits of the interrupt collaborator (R309). -/
  irq : IrqPending
  /-- Host memory, the DMA target (R50, R60): the bytes the device has stored, addresses strictly rising. An address
  that is not listed holds whatever was there before (log entry 12). -/
  hostMem : List Host.Cell
  /-- The media backend that is mounted now (R35): the configuration's at power-up, replaced by a disc change (R342,
  R343). -/
  media : Media
  /-- The configuration (R5); no step changes it. -/
  cfg : Cfg
  /-- The model's own: what the agents will do next, the first element first (R2, R62; log entry 1). -/
  pending : List Input
  /-- The model's own: the output events of the step taken last, in order (R3; log entry 5). -/
  events : List Event
  /-- The model's own: how many free values have been drawn (log entry 9). -/
  draws : Nat
  deriving DecidableEq, Repr

/-- How a run ends with a fault. -/
inductive Fault where
  /-- R133, R305: a transition that R132 does not list, raised by a Command write outside `WaitCommand` (R162) and by
  any `enter` with no row in R132. Safe: the run ends and nothing is claimed of what follows. -/
  | unmappedTransition
  deriving DecidableEq, Repr

/-- Why the model gives an access no meaning. -/
inductive Refusal where
  /-- An operation that is still rejected by name in Machine/Dispatch.lean. Safe: nothing is claimed. -/
  | notModelled (mnemonic : String)
  /-- R53, R306: an access of a width the port does not take, 8 bits to Data or 32 bits or more to any port. Raised by
  the port operations and by the unmapped access of 32 bits. Safe: nothing is claimed. -/
  | badAccessWidth
  deriving DecidableEq, Repr

/-- The machine right after power-up under a configuration: the device as R38 says, with the configuration's backend
mounted (R5, R35), the collaborators at rest (log entry 11), no input, no event. -/
def State.powerUp (c : Cfg) : State where
  drive := resetDrive c c.media.discType
  dma := { addr := 0, length := 0, transferred := 0, cursor := 0, direction := 0, start := false, enable := false }
  irq := { commandComplete := false, dmaComplete := false }
  hostMem := []
  media := c.media
  cfg := c
  pending := []
  events := []
  draws := 0

/-- The machine right after power-up under the reference configuration, whose backend is the GD-ROM of the spec's start
state S0 (log entries 6, 10). -/
def State.reset : State := State.powerUp Cfg.ref

end Sys2Proof.Machine
end

