-- ==== Sys2Proof/Machine/Flags.lean ====
section
/-! DEFINITION. The bytes a host reads from the flag registers, and the policies that compute the check bit. -/

namespace Sys2Proof.Machine

/-- The sense keys that count as no error for an ATA command (R181): no sense, aborted and unit attention, by R100 0x0,
0xB and 0x6. -/
def ataHarmless (c : Cfg) (key : BitVec 4) : Bool :=
  key == c.skNoSense || key == c.skAborted || key == c.skUnitAttention

/-- The sense keys that count as no error for a packet command (R200): no sense and aborted, by R100 0x0 and 0xB. -/
def packetHarmless (c : Cfg) (key : BitVec 4) : Bool := key == c.skNoSense || key == c.skAborted

/-- The Status byte (R12, R161): busy, ready, deviceFault, a draw, drq, two draws, check. The draws are bits 4, 2 and 1
of a free byte. -/
def statusByte (st : Status) (draw : Byte) : Byte :=
  (BitVec.ofBool st.busy ++ BitVec.ofBool st.ready ++ BitVec.ofBool st.deviceFault ++ draw.extractLsb' 4 1 ++
    BitVec.ofBool st.drq ++ draw.extractLsb' 2 1 ++ draw.extractLsb' 1 1 ++ BitVec.ofBool st.check : BitVec 8)

/-- The Error byte (R14, R153): the sense key, then mcr, abort, eom, ili. -/
def errorByte (key : BitVec 4) (e : ErrorFlags) : Byte :=
  (key ++ BitVec.ofBool e.mcr ++ BitVec.ofBool e.abort ++ BitVec.ofBool e.eom ++ BitVec.ofBool e.ili : BitVec 8)

/-- The Interrupt Reason byte (R15, R155): `cod` at bit 0, bits 7:1 a draw. -/
def ireasonByte (cod : Bool) (draw : Byte) : Byte := (draw.extractLsb' 1 7 ++ BitVec.ofBool cod : BitVec 8)

/-- The disc status nibble of Sector Number (R18). -/
def discStatusOf (sectorNumber : Byte) : BitVec 4 := sectorNumber.extractLsb' 0 4

/-- The disc format nibble of Sector Number (R18). -/
def discFormatOf (sectorNumber : Byte) : BitVec 4 := sectorNumber.extractLsb' 4 4

/-- The slave pattern: bit 4 of Drive Select (R20, R150). -/
def slaveSelected (driveSelect : Byte) : Bool := driveSelect.getLsbD 4

/-- The DMA-enable bit of Features (R16). -/
def featuresDma (features : Byte) : Bool := features.getLsbD 0

end Sys2Proof.Machine
end

