-- ==== Sys2Proof/Machine/Operands.lean ====
section
/-! DEFINITION. Operand assembly and byte sequences: addresses (R92), sector sizes (R93), slices (R99), 16-bit words in
byte buffers (R55), parts of buffers. -/

namespace Sys2Proof.Machine

/-- Address assembly (R92): 24 bits, most significant byte first, or minutes, seconds and frames. -/
def addrOf (msf : Bool) (a : Addr3) : Fad :=
  if msf then BitVec.ofNat 32 (a.b0.toNat * 60 * 75 + a.b1.toNat * 75 + a.b2.toNat)
  else BitVec.ofNat 32 (65536 * a.b0.toNat + 256 * a.b1.toNat + a.b2.toNat)

/-- Sector size selection (R93): the table of `Cfg` lists the flag combinations that select `SECTOR_RAW`. -/
def sectorSizeOf (c : Cfg) (f : ReadFlags) : SectorSize :=
  if c.rawSectorFlags.contains { f with msf := false }.toByte then .raw else .data

/-- The clamped sub-range of a record (R99). -/
def sliceOf (record : List Byte) (off len : Nat) : List Byte :=
  let off' := min off record.length
  (record.drop off').take (min len (record.length - off'))

/-- A byte of a buffer; bytes beyond the list hold 0 (log entry 13). -/
def bufByte (b : List Byte) (i : Nat) : Byte := b.getD i 0

/-- The bytes `a` to `a + n - 1` of a buffer. -/
def bufSlice (b : List Byte) (a n : Nat) : List Byte :=
  let part := (b.drop a).take n
  part ++ List.replicate (n - part.length) 0

/-- Store one byte in a buffer. -/
def bufSet (b : List Byte) (i : Nat) (v : Byte) : List Byte :=
  if i < b.length then b.set i v else b ++ List.replicate (i - b.length) 0 ++ [v]

/-- Word `k` of a buffer, low byte first (R55). -/
def wordAt (b : List Byte) (k : Nat) : Half := bufByte b (2 * k + 1) ++ bufByte b (2 * k)

/-- Store word `k` of a buffer, low byte first (R55). -/
def setWord (b : List Byte) (k : Nat) (w : Half) : List Byte :=
  bufSet (bufSet b (2 * k) (w.extractLsb' 0 8)) (2 * k + 1) (w.extractLsb' 8 8)

/-- Store `n` bytes of a sequence at the start of a buffer; the bytes beyond keep their values (R134). -/
def bufFill (old new : List Byte) (n : Nat) : List Byte := new.take n ++ old.drop n

/-- Replace `m` bytes of a block from `off` on (R131). -/
def blockReplace (block new : List Byte) (off m : Nat) : List Byte := block.take off ++ new ++ block.drop (off + m)

/-- Bytes 2, 1 and 0 of a 32-bit value, most significant first (R202, R212). -/
def fad24 (v : BitVec 32) : List Byte := [v.extractLsb' 16 8, v.extractLsb' 8 8, v.extractLsb' 0 8]

/-- The status record of REQ_STAT (R202), `STATUS_RECORD_BYTES` of it. -/
def statusRecord (c : Cfg) (d : DriveState) (track : Byte) : List Byte :=
  ([(discStatusOf d.sectorNumber).setWidth 8, discFormatOf d.sectorNumber ++ d.cdda.repeatCount, 0x04, track, 0x01]
    ++ fad24 d.cdda.currentFad ++ [0x00, 0x00]).take c.statusRecordBytes

/-- The sense record of REQ_ERROR (R205), `ERROR_RECORD_BYTES` of it. -/
def errorRecord (c : Cfg) (s : Sense) : List Byte :=
  [0xF0, 0x00, s.key.setWidth 8, 0x00, 0x00, 0x00, 0x00, 0x00, s.asc, s.ascq].take c.errorRecordBytes

/-- The header of every subcode record (R210): 0, the audio status, the record's length most significant byte first. -/
def subcodeHeader (c : Cfg) (st : AudioStatus) (len : BitVec 16) : List Byte :=
  [0x00, audioStatusCode c st, len.extractLsb' 8 8, len.extractLsb' 0 8]

/-- The raw subcode record (R211). -/
def rawSubcodeRecord (c : Cfg) (st : AudioStatus) (sub : List Byte) : List Byte := subcodeHeader c st 100 ++ sub

/-- The Q-channel record (R212): `tr` is the backend's track number followed by its elapsed time, most significant
byte first. -/
def qChannelRecord (c : Cfg) (d : DriveState) (fad : Fad) (tr : List Byte) : List Byte :=
  subcodeHeader c d.cdda.status 14
    ++ [if discFormatOf d.sectorNumber = 0 then 0x01 else 0x41, bufByte tr 0, 0x01]
    ++ [bufByte tr 1, bufByte tr 2, bufByte tr 3] ++ [0x00] ++ fad24 fad

/-- The media catalogue number record (R213). -/
def mcnRecord (c : Cfg) (st : AudioStatus) : List Byte :=
  subcodeHeader c st 24 ++ [0x02, 0x00, 0x00, 0x00, 0x00] ++ List.replicate 13 0x30 ++ [0x00, 0x00]

end Sys2Proof.Machine
end

