-- ==== Sys2Proof/Machine/Ops.lean ====
section
/-! DEFINITION. The named operations: events and interrupt lines (R309), calls of the media backend (R35), host memory
stores (R60), the state machine's transitions and entry actions (R120 to R131), the staging helpers (R134, R135), the
cache refill (R251), the completions and the error paths (R181, R214 to R216), the full reset (R340) and the gates every
host access passes (R316). -/

namespace Sys2Proof.Machine

/-- What a step answers. -/
abbrev Res := Host.Outcome State Fault Refusal

/-- Go on with the next state, or stop as the first part stopped. -/
def andThen (r : Res) (k : State → Res) : Res :=
  match r with
  | .next s => k s
  | .fault f => .fault f
  | .refused q => .refused q

/-! ### Output events and interrupt lines -/

/-- Put out one event after those of the step so far (R3). -/
def State.emit (s : State) (e : Event) : State := { s with events := s.events ++ [e] }

/-- Set the pending bit of a line (R309). -/
def IrqPending.set (p : IrqPending) (l : Line) (v : Bool) : IrqPending :=
  match l with
  | .commandComplete => { p with commandComplete := v }
  | .dmaComplete => { p with dmaComplete := v }

/-- `Raise(line)` (R309): the event, and the collaborator's pending bit set. -/
def raiseLine (l : Line) (s : State) : State := { s with irq := s.irq.set l true }.emit (.raise l)

/-- `if b then Raise(line)` (R125, R126). -/
def raiseLineIf (b : Bool) (l : Line) (s : State) : State :=
  { s with irq := if b then s.irq.set l true else s.irq, events := s.events ++ (if b then [.raise l] else []) }

/-- `Cancel(line)` (R309): the event, and the collaborator's pending bit cleared. -/
def cancelLine (l : Line) (s : State) : State := { s with irq := s.irq.set l false }.emit (.cancel l)

/-- The outcome `ignored` (R3): nothing changes but its mark. -/
def ignoredStep (s : State) : Res := .next (s.emit .ignored)

/-- The outcome `ignored` of a read: it returns 0 (R3, R54, R150). -/
def ignoredRead (w : Width) (s : State) : Res := .next ((s.emit .ignored).emit (.readValue w 0))

/-! ### Free values and the media backend -/

/-- One more free value has been drawn (log entry 9). -/
def State.nextDraw (s : State) : State := { s with draws := s.draws + 1 }

/-- The first `n` bytes of a backend's answer (R35). A known answer is given as it is and is free beyond its end; an
answer the backend holds is the same at every call; any other, and every answer with no disc, is draw number `draw`,
from byte `base` of it on (R35, R61; log entry 8). -/
def mediaBytes (m : Media) (draw base : Nat) (q : MediaQuery) (n : Nat) : List Byte :=
  let free (a k : Nat) := (List.range' a k).map fun i => Config.drawByte draw (base + i)
  if discPresent m.discType then
    match m.answers.find? fun a => a.1 == q with
    | some a => a.2.take n ++ free a.2.length (n - a.2.length)
    | none => (List.range' 0 n).map fun i =>
        if Config.onDisc m.id q then Config.mediaByte m.id q i else Config.drawByte draw (base + i)
  else free 0 n

/-- `Media.readSectors(fad, count, size)` (R35): `count` sectors, sector `fad` first, one after the other (R61). -/
def mediaSectors (s : State) (fad : Fad) (count size : Nat) : List Byte :=
  (List.range' 0 count).flatMap fun k =>
    mediaBytes s.media s.draws (k * size) (.sector (fad + BitVec.ofNat 32 k) size) size

/-- Any other call of the backend (R35): `n` bytes of its answer. -/
def mediaAnswer (s : State) (q : MediaQuery) (n : Nat) : List Byte := mediaBytes s.media s.draws 0 q n

/-! ### Host memory -/

/-- `HostMemWrite(addr, bytes)` (R60): the event and the store; a store of no byte is no store (R254). -/
def hostMemWrite (addr : Addr) (bytes : List Byte) (n : Nat) (s : State) : State :=
  if n = 0 then s
  else { s with hostMem := memWriteBytes s.hostMem addr bytes }.emit (.hostMemWrite addr bytes)

/-! ### Transitions (R120, R132, R133) -/

/-- The transition table (R132), without the resets, which replace the whole state. -/
def mapped : Proto → Proto → Bool
  | .waitCommand, .processAtaCommand => true
  | .processAtaCommand, .waitCommand => true
  | .processAtaCommand, .waitPacket => true
  | .processAtaCommand, .pioSendData => true
  | .processAtaCommand, .pioEnd => true
  | .waitPacket, .processPacketCommand => true
  | .processPacketCommand, .processPacketDone => true
  | .processPacketCommand, .pioSendData => true
  | .processPacketCommand, .pioEnd => true
  | .processPacketCommand, .pioGetData => true
  | .processPacketCommand, .processSetMode => true
  | .processPacketCommand, .readSectorPio => true
  | .processPacketCommand, .readSectorDma => true
  | .readSectorPio, .pioSendData => true
  | .readSectorPio, .pioEnd => true
  | .pioSendData, .pioEnd => true
  | .pioSendData, .readSectorPio => true
  | .pioGetData, .processSetMode => true
  | .processSetMode, .pioEnd => true
  | .pioEnd, .processPacketDone => true
  | .readSectorDma, .processPacketDone => true
  | .processPacketDone, .waitCommand => true
  | _, _ => false

/-- The first act of `enter(S)` (R120): `state <- S`, if R132 lists the transition; else the fault of R133. -/
def moveTo (t : Proto) (s : State) : Res :=
  if mapped s.drive.state t then .next { s with drive.state := t } else .fault .unmappedTransition

/-! ### Entry actions -/

/-- `enter(WaitCommand)` (R121). -/
def enterWaitCommand (s : State) : Res :=
  andThen (moveTo .waitCommand s) fun s =>
  .next { s with drive.status.ready := true, drive.status.busy := false }

/-- `enter(WaitPacket)` (R123). -/
def enterWaitPacket (s : State) : Res :=
  andThen (moveTo .waitPacket s) fun s =>
  .next { s with
    drive.packet := { bytes := List.replicate s.cfg.packetBytes 0, index := 0 }
    drive.ireasonCod := true
    drive.status.busy := false
    drive.status.drq := true }

/-- `enter(ProcessPacketDone)` (R130). -/
def enterProcessPacketDone (s : State) : Res :=
  andThen (moveTo .processPacketDone s) fun s =>
  enterWaitCommand
    (raiseLine .commandComplete { s with drive.status.ready := true, drive.ireasonCod := true })

/-- `enter(PioEnd)` (R129). -/
def enterPioEnd (s : State) : Res :=
  andThen (moveTo .pioEnd s) fun s =>
  enterProcessPacketDone { s with drive.status.drq := false }

/-- The entry action `PioSendData` and `PioGetData` share (R125, R126). -/
def openPioWindow (p : Proto) (s : State) : Res :=
  andThen (moveTo p s) fun s =>
  let s : State := { s with
    drive.byteCount := BitVec.ofNat 16 (2 * s.drive.pio.size)
    drive.ireasonCod := false
    drive.status.drq := true
    drive.status.busy := false }
  .next (raiseLineIf s.cfg.irqOnPioReady .commandComplete s)

/-- `enter(PioSendData)` (R125). -/
def enterPioSendData (s : State) : Res := openPioWindow .pioSendData s

/-- `enter(PioGetData)` (R126). -/
def enterPioGetData (s : State) : Res := openPioWindow .pioGetData s

/-- `enter(ProcessSetMode)` (R131). -/
def enterProcessSetMode (s : State) : Res :=
  andThen (moveTo .processSetMode s) fun s =>
  let m := 2 * s.drive.pio.size
  enterPioEnd { s with
    drive.modeBlock := blockReplace s.drive.modeBlock (bufSlice s.drive.pio.data 0 m) s.drive.setModeOffset m }

/-- `StageReply(B, L, next)` (R134). A transfer of no words enters `next` at once: that is `PioEnd` for every caller of
R132, and any other `next` has no row there (R133). -/
def stageReply (b : List Byte) (len : Nat) (next : Proto) (s : State) : Res :=
  let s : State := { s with
    drive.pio := { data := bufFill s.drive.pio.data b len, index := 0, size := len / 2, nextState := next } }
  if len / 2 = 0 then
    if next = .pioEnd then enterPioEnd s else .fault .unmappedTransition
  else enterPioSendData s

/-- `StageReceive(L, next)` (R135) for its one continuation, `ProcessSetMode` (R126). -/
def stageReceive (len : Nat) (s : State) : Res :=
  let s : State := { s with
    drive.pio.index := 0, drive.pio.size := len / 2, drive.pio.nextState := .processSetMode }
  if len / 2 = 0 then enterProcessSetMode s else enterPioGetData s

/-- `n` sectors have been read for the read request (R26). -/
def advanceRead (n : Nat) (s : State) : State :=
  { s with
    drive.rr.startSector := s.drive.rr.startSector + BitVec.ofNat 32 n
    drive.rr.remaining := s.drive.rr.remaining - BitVec.ofNat 32 n }

/-- `enter(ReadSectorPio)` (R127). -/
def enterReadSectorPio (s : State) : Res :=
  andThen (moveTo .readSectorPio s) fun s =>
  let n := min s.drive.rr.remaining.toNat s.cfg.pioBurstSectors
  let next := if s.drive.rr.remaining.toNat > s.cfg.pioBurstSectors then Proto.readSectorPio else .pioEnd
  let size := sectorBytes s.cfg s.drive.rr.sectorSize
  let b := mediaSectors s s.drive.rr.startSector n size
  stageReply b (n * size) next (advanceRead n s.nextDraw)

/-- `FillCache()` (R251). -/
def fillCache (s : State) : State :=
  let n := min s.drive.rr.remaining.toNat s.cfg.cacheSectors
  let size := sectorBytes s.cfg s.drive.rr.sectorSize
  let b := mediaSectors s s.drive.rr.startSector n size
  advanceRead n
    { s.nextDraw with drive.cache := { bytes := bufFill s.drive.cache.bytes b (n * size), rd := 0, avail := n * size } }

/-- `enter(ReadSectorDma)` (R128). -/
def enterReadSectorDma (s : State) : Res :=
  andThen (moveTo .readSectorDma s) fun s =>
  .next (fillCache s)

/-- Enter the state a PIO transfer stored as its continuation (R24, R25). The rules store three (R25); any other has no
row out of a PIO state (R132, R133). -/
def enterContinuation (s : State) : Res :=
  match s.drive.pio.nextState with
  | .pioEnd => enterPioEnd s
  | .readSectorPio => enterReadSectorPio s
  | .processSetMode => enterProcessSetMode s
  | _ => .fault .unmappedTransition

/-! ### Completions and errors -/

/-- `AtaComplete(a)` (R181). -/
def ataComplete (a : Bool) (s : State) : Res :=
  enterWaitCommand (raiseLine .commandComplete { s with
    drive.status.busy := false
    drive.error.abort := a
    drive.status.check := a || !ataHarmless s.cfg s.drive.sense.key })

/-- The command-level error of a packet command (R302): sense, abort, check, and no data. -/
def packetError (sense : Sense) (abort : Bool) (s : State) : Res :=
  enterProcessPacketDone { s with
    drive.sense := sense
    drive.error.abort := abort
    drive.status.check := true }

/-- `ParamError()` (R215). -/
def paramError (s : State) : Res := packetError ⟨s.cfg.skIllegalRequest, s.cfg.ascInvalidField, 0⟩ true s

/-! ### Disc status and reset -/

/-- Write the disc status nibble of Sector Number (R18). -/
def setDiscStatus (st : DiscStatus) (s : State) : State :=
  { s with drive.sectorNumber := sectorNumberOf (discFormatOf s.drive.sectorNumber) (discStatusCode s.cfg st) }

/-- Write both nibbles of Sector Number from the disc type, with the status given for a disc that is present (R38). -/
def setDiscRegister (withDisc : DiscStatus) (s : State) : State :=
  let t := s.drive.discType
  { s with drive.sectorNumber :=
      sectorNumberOf (discFormatCode s.cfg t) (discStatusCode s.cfg (discStatusFor t withDisc)) }

/-- `FullReset()` (R340): the device at its reset values with the disc type the backend reports; the collaborators are
not the device's and stay. -/
def fullReset (s : State) : State := { s with drive := resetDrive s.cfg s.media.discType }

/-- The unit attention of a disc change (R342, R344), if the configuration has it. -/
def unitAttention (s : State) : State :=
  if s.cfg.discChangeSetsUnitAttention then
    { s with drive.sense := ⟨s.cfg.skUnitAttention, s.cfg.ascMediumChanged, 0⟩ }
  else s

/-- A tray event (R342): the backend is replaced, the device reset, the unit attention set. -/
def discChange (m : Media) (s : State) : State := unitAttention (fullReset { s with media := m })

/-! ### The gates of a host access (R316): width, then the slave gate, then the port rule -/

/-- A read of an 8-bit port (R52, R53, R150): `k` gives the register's value and the state after the read. -/
def portRead (w : Width) (s : State) (k : State → Byte × State) : Res :=
  if w = .w32 then .refused .badAccessWidth
  else if slaveSelected s.drive.driveSelect then ignoredRead w s
  else .next ((k s).2.emit (.readValue w ((k s).1.setWidth 16)))

/-- A write of an 8-bit port (R52, R53, R150): bits 7:0 of the value reach the port rule `k`. -/
def portWrite (w : Width) (v : BitVec 32) (s : State) (k : Byte → State → Res) : Res :=
  if w = .w32 then .refused .badAccessWidth
  else if slaveSelected s.drive.driveSelect then ignoredStep s
  else k (v.setWidth 8) s

/-- An access to the Data port: 16 bits only (R52, R53), then the slave gate (R150), which answers `gated`. -/
def dataAccess (w : Width) (s : State) (gated k : State → Res) : Res :=
  if w ≠ .w16 then .refused .badAccessWidth
  else if slaveSelected s.drive.driveSelect then gated s
  else k s

/-! ### The persisted form (R39) -/

/-- What a save state holds: the whole `DriveState`, and nothing of the collaborators (R39, R260). -/
def saveState (s : State) : DriveState := s.drive

/-- Restore a save state (R39). -/
def restoreState (d : DriveState) (s : State) : State := { s with drive := d }

end Sys2Proof.Machine
end

