-- ==== Sys2Proof/Machine/AtaCommands.lean ====
section
/-! DEFINITION. The ATA commands (R180 to R189). A command runs inside the entry action of `ProcessAtaCommand` (R122),
so its meaning is that of the state it finds there (log entry 20). -/

namespace Sys2Proof.Machine

/-- NOP (R182). -/
def execNop (s : State) : Res := ataComplete true s

/-- SOFT_RESET (R183). -/
def execSoftReset (s : State) : Res :=
  ataComplete false (setDiscRegister .paused { s with
    drive.status.deviceFault := false
    drive.status.check := false
    drive.status.drq := false
    drive.error := { ili := false, eom := false, abort := false, mcr := false }
    drive.ireasonCod := false
    drive.features := 0
    drive.sectorCount := 0
    drive.driveSelect := 0
    drive.sense := ⟨s.cfg.skNoSense, 0, 0⟩
    drive.cdda.status := .noInfo
    drive.byteCount := s.cfg.sigByteCountHi ++ s.cfg.sigByteCountLo })

/-- EXECUTE_DIAGNOSTIC (R184): success whatever the sense. -/
def execExecuteDiagnostic (s : State) : Res :=
  enterWaitCommand (raiseLine .commandComplete { s with
    drive.status.busy := false
    drive.error.abort := false
    drive.status.check := false })

/-- PACKET (R185). -/
def execPacket (s : State) : Res := enterWaitPacket s

/-- IDENTIFY_DEVICE (R186). -/
def execIdentifyDevice (s : State) : Res :=
  stageReply s.cfg.identifyBlock s.cfg.identifyBytes .pioEnd { s with
    drive.error.abort := false
    drive.status.check := !ataHarmless s.cfg s.drive.sense.key }

/-- SET_FEATURES (R187): acknowledged, neither register is read or changed. -/
def execSetFeatures (s : State) : Res := ataComplete false s

/-- IDENTIFY, the legacy signature probe (R188). -/
def execIdentify (s : State) : Res :=
  ataComplete true { s with drive.byteCount := s.cfg.sigByteCountHi ++ s.cfg.sigByteCountLo }

/-- An ATA command byte that R82 does not list (R189): the key only. -/
def execAtaUnknown (_opcode : Byte) (s : State) : Res :=
  ataComplete true { s with drive.sense.key := s.cfg.skIllegalRequest }

/-- Any ATA command while a media swap is pending (R180). -/
def execAtaSwapReject (s : State) : Res := ataComplete true { s with drive.sense := s.cfg.swapRejectSense }

/-- The command that runs: the swap check comes before the opcode (R180, R316). -/
def selectAta (s : State) (i : Instr) : Instr := if s.drive.discSwapPending then .ataSwapReject else i

/-- Run an ATA command. An operation that is no ATA command never comes here: `decodeAta` yields none. -/
def runAta (i : Instr) (s : State) : Res :=
  match i with
  | .nop => execNop s
  | .softReset => execSoftReset s
  | .executeDiagnostic => execExecuteDiagnostic s
  | .packet => execPacket s
  | .identifyDevice => execIdentifyDevice s
  | .setFeatures => execSetFeatures s
  | .identify => execIdentify s
  | .ataUnknown b => execAtaUnknown b s
  | .ataSwapReject => execAtaSwapReject s
  | _ => .fault .unmappedTransition

/-- `AtaDispatch()` (R180). -/
def ataDispatch (s : State) : Res := runAta (selectAta s (decodeAta s.cfg s.drive.ataCommand)) s

/-- The state in which an ATA command runs: `state <- ProcessAtaCommand`, `ready <- 0`, `busy <- 1` (R122). -/
def inProcessAta (s : State) : State :=
  { s with drive.state := .processAtaCommand, drive.status.ready := false, drive.status.busy := true }

/-- `enter(ProcessAtaCommand)` (R122). -/
def enterProcessAtaCommand (s : State) : Res :=
  andThen (moveTo .processAtaCommand s) fun s => ataDispatch (inProcessAta s)

end Sys2Proof.Machine
end

