-- ==== Sys2Proof/Machine/PacketInfo.lean ====
section
/-! DEFINITION. The packet commands of file 43 (R201 to R216). A command runs inside the entry action of
`ProcessPacketCommand` (R124), after the prologue of R200 (log entry 20). -/

namespace Sys2Proof.Machine

/-- TEST_UNIT (R201): check says whether the disc status is `busy`. -/
def execTestUnit (s : State) : Res :=
  enterProcessPacketDone { s with
    drive.status.check := decide (discStatusOf s.drive.sectorNumber = discStatusCode s.cfg .busy) }

/-- CD_OPEN (R208): acknowledged, no effect. -/
def execCdOpen (s : State) : Res := enterProcessPacketDone s

/-- CD_SCAN (R209): acknowledged, no effect. -/
def execCdScan (s : State) : Res := enterProcessPacketDone s

/-- Stage a whole record that has been cut to its reply (R202, R203, R205, R207). -/
def stageRecord (r : List Byte) (s : State) : Res := stageReply r r.length .pioEnd s

/-- REQ_STAT (R202). -/
def execReqStat (offset length : Byte) (s : State) : Res :=
  let tr := mediaAnswer s (.track s.drive.cdda.currentFad) 4
  stageRecord (sliceOf (statusRecord s.cfg s.drive (bufByte tr 0)) offset.toNat length.toNat) s.nextDraw

/-- REQ_MODE (R203). -/
def execReqMode (offset length : Byte) (s : State) : Res :=
  stageRecord (sliceOf s.drive.modeBlock offset.toNat length.toNat) s

/-- SET_MODE (R204). -/
def execSetMode (offset length : Byte) (s : State) : Res :=
  let off := min offset.toNat s.cfg.modeWritableBytes
  let n := min length.toNat (s.cfg.modeWritableBytes - off)
  stageReceive n { s with drive.setModeOffset := off }

/-- REQ_ERROR (R205): the record is built before the sense is cleared. -/
def execReqError (length : Byte) (s : State) : Res :=
  let record := errorRecord s.cfg s.drive.sense
  stageRecord (sliceOf record 0 length.toNat) { s with drive.sense := ⟨s.cfg.skNoSense, 0, 0⟩ }

/-- GET_TOC (R206). -/
def execGetToc (area : Bool) (req : Half) (s : State) : Res :=
  stageReply (mediaAnswer s (.toc area) s.cfg.tocBytes) (min req.toNat s.cfg.tocBytes) .pioEnd s.nextDraw

/-- REQ_SES (R207). With `SES_INFO_BYTES` = 0, which R5 does not forbid, the record is its first byte alone (log entry
33). -/
def execReqSes (session length : Byte) (s : State) : Res :=
  let record := (discStatusOf s.drive.sectorNumber).setWidth 8 :: mediaAnswer s (.session session) (s.cfg.sesInfoBytes - 1)
  stageRecord (sliceOf record 0 length.toNat) s.nextDraw

/-- The reply of GET_SCD (R210): the least of the record, the allocation length and the reply buffer. -/
def stageSubcode (record : List Byte) (alloc : Half) (s : State) : Res :=
  stageReply record (min record.length (min alloc.toNat s.cfg.scdBufBytes)) .pioEnd s

/-- GET_SCD's raw record (R211). -/
def subcodeRaw (alloc : Half) (s : State) : Res :=
  stageSubcode (rawSubcodeRecord s.cfg s.drive.cdda.status (mediaAnswer s (.subchannel 96) 96)) alloc s.nextDraw

/-- GET_SCD's Q-channel record (R212): the position is the read request's, minus one sector. -/
def subcodeQ (alloc : Half) (s : State) : Res :=
  let fad := s.drive.rr.startSector - 1
  stageSubcode (qChannelRecord s.cfg s.drive fad (mediaAnswer s (.track fad) 4)) alloc s.nextDraw

/-- GET_SCD's media catalogue number record (R213). -/
def subcodeMcn (alloc : Half) (s : State) : Res := stageSubcode (mcnRecord s.cfg s.drive.cdda.status) alloc s

/-- GET_SCD.RAW (R211). -/
def execGetScdRaw (alloc : Half) (s : State) : Res := subcodeRaw alloc s

/-- GET_SCD.Q (R212). -/
def execGetScdQ (alloc : Half) (s : State) : Res := subcodeQ alloc s

/-- GET_SCD.MCN (R213). -/
def execGetScdMcn (alloc : Half) (s : State) : Res := subcodeMcn alloc s

/-- GET_SCD (R210), for every format. -/
def execGetScd (format : BitVec 4) (alloc : Half) (s : State) : Res :=
  if format = 0 then subcodeRaw alloc s
  else if format = 1 then subcodeQ alloc s
  else if format = 2 then subcodeMcn alloc s
  else paramError s

/-- A packet opcode that R84 does not list (R214). -/
def execPktUnknown (_opcode : Byte) (s : State) : Res :=
  packetError ⟨s.cfg.skIllegalRequest, s.cfg.ascInvalidCommand, 0⟩ true s

/-- An invalid parameter (R215). -/
def execPktParamError (s : State) : Res := paramError s

/-- A media command with no disc, under the policy `notReady` (R216). The abort flag stays 0. -/
def execPktMediaAbsent (s : State) : Res :=
  packetError ⟨s.cfg.skNotReady, s.cfg.ascNoMedium, 0⟩ s.drive.error.abort s

end Sys2Proof.Machine
end

