-- ==== Sys2Proof/Machine/PacketMedia.lean ====
section
/-! DEFINITION. The packet commands of file 44 (R230 to R236), and the packet dispatch (R200, R124). -/

namespace Sys2Proof.Machine

/-- `BeginRead(count)` (R232). -/
def beginRead (flags : ReadFlags) (start : Addr3) (count : BitVec 32) (s : State) : Res :=
  let s : State := { s with drive.rr :=
    { startSector := addrOf flags.msf start, remaining := count, sectorSize := sectorSizeOf s.cfg flags } }
  if featuresDma s.drive.features then enterReadSectorDma s else enterReadSectorPio s

/-- CD_READ (R230). -/
def execCdRead (flags : ReadFlags) (start : Addr3) (count : BitVec 24) (s : State) : Res :=
  beginRead flags start (count.setWidth 32) s

/-- CD_READ2 (R231). -/
def execCdRead2 (flags : ReadFlags) (start : Addr3) (count : Half) (s : State) : Res :=
  beginRead flags start (count.setWidth 32) s

/-- CD_PLAY with an address (R234). -/
def playFrom (msf : Bool) (start : Addr3) (rep : BitVec 4) (stop : Addr3) (s : State) : Res :=
  enterProcessPacketDone (setDiscStatus .playing { s with
    drive.cdda :=
      { status := .playing, currentFad := addrOf msf start, startFad := addrOf msf start, endFad := addrOf msf stop,
        repeatCount := rep } })

/-- CD_PLAY resume (R235). -/
def playResume (s : State) : Res :=
  if s.drive.cdda.currentFad.toNat ≤ s.drive.cdda.endFad.toNat then
    enterProcessPacketDone (setDiscStatus .playing { s with drive.cdda.status := .playing })
  else
    enterProcessPacketDone (setDiscStatus .paused { s with drive.cdda.status := .terminated })

/-- CD_PLAY.FAD (R234). -/
def execCdPlayFad (start : Addr3) (rep : BitVec 4) (stop : Addr3) (s : State) : Res := playFrom false start rep stop s

/-- CD_PLAY.MSF (R234). -/
def execCdPlayMsf (start : Addr3) (rep : BitVec 4) (stop : Addr3) (s : State) : Res := playFrom true start rep stop s

/-- CD_PLAY.RESUME (R235). -/
def execCdPlayResume (s : State) : Res := playResume s

/-- CD_PLAY (R233), for every parameter type. -/
def execCdPlay (ptype : BitVec 3) (start : Addr3) (rep : BitVec 4) (stop : Addr3) (s : State) : Res :=
  if ptype = 1 then playFrom false start rep stop s
  else if ptype = 2 then playFrom true start rep stop s
  else if ptype = 7 then playResume s
  else paramError s

/-- CD_SEEK to an address (R236, types 1 and 2). -/
def seekTo (fad : Fad) (s : State) : Res :=
  enterProcessPacketDone (setDiscStatus .paused { s with drive.cdda.currentFad := fad, drive.cdda.status := .paused })

/-- CD_SEEK (R236). -/
def execCdSeek (ptype : BitVec 4) (target : Addr3) (s : State) : Res :=
  if ptype = 1 then seekTo (addrOf false target) s
  else if ptype = 2 then seekTo (addrOf true target) s
  else if ptype = 3 then
    enterProcessPacketDone (setDiscStatus .standby { s with
      drive.cdda.startFad := s.cfg.homeFad
      drive.cdda.endFad := s.cfg.homeFad
      drive.cdda.currentFad := s.cfg.homeFad
      drive.cdda.status := .noInfo })
  else if ptype = 4 then
    enterProcessPacketDone (setDiscStatus .paused { s with drive.cdda.status := .paused })
  else paramError s

/-- The seven commands that need a disc (R200), with the variants of two of them. -/
def needsMedia : Instr → Bool
  | .getToc _ _ | .reqSes _ _ | .getScd _ _ | .getScdRaw _ | .getScdQ _ | .getScdMcn _ | .cdPlay _ _ _ _
  | .cdPlayFad _ _ _ | .cdPlayMsf _ _ _ | .cdPlayResume | .cdSeek _ _ | .cdRead _ _ _ | .cdRead2 _ _ _ => true
  | _ => false

/-- The command that runs: the media check comes before the command (R200, R316). -/
def selectPacket (s : State) (i : Instr) : Instr :=
  if s.cfg.mediaAbsentPolicy = .notReady ∧ discPresent s.drive.discType = false ∧ needsMedia i = true
  then .pktMediaAbsent else i

/-- The prologue of every packet command (R200): check from the old sense, abort cleared. -/
def packetPrologue (s : State) : State :=
  { s with drive.status.check := !packetHarmless s.cfg s.drive.sense.key, drive.error.abort := false }

/-- Run a packet command. An operation that is no packet command never comes here: `decodePacket` yields none. -/
def runPacket (i : Instr) (s : State) : Res :=
  match i with
  | .testUnit => execTestUnit s
  | .reqStat o l => execReqStat o l s
  | .reqMode o l => execReqMode o l s
  | .setMode o l => execSetMode o l s
  | .reqError l => execReqError l s
  | .getToc a r => execGetToc a r s
  | .reqSes n l => execReqSes n l s
  | .cdOpen => execCdOpen s
  | .cdPlay p a r b => execCdPlay p a r b s
  | .cdSeek p a => execCdSeek p a s
  | .cdScan => execCdScan s
  | .cdRead f a n => execCdRead f a n s
  | .cdRead2 f a n => execCdRead2 f a n s
  | .getScd f l => execGetScd f l s
  | .pktUnknown b => execPktUnknown b s
  | .cdPlayFad a r b => execCdPlayFad a r b s
  | .cdPlayMsf a r b => execCdPlayMsf a r b s
  | .cdPlayResume => execCdPlayResume s
  | .getScdRaw l => execGetScdRaw l s
  | .getScdQ l => execGetScdQ l s
  | .getScdMcn l => execGetScdMcn l s
  | .pktMediaAbsent => execPktMediaAbsent s
  | _ => .fault .unmappedTransition

/-- `PacketDispatch()` (R200). -/
def packetDispatch (s : State) : Res :=
  let s := packetPrologue s
  runPacket (selectPacket s (decodePacket s.cfg s.drive.packet.bytes)) s

/-- The state in which a packet command's dispatch runs (R124). -/
def inProcessPacket (s : State) : State :=
  { s with drive.state := .processPacketCommand, drive.status.drq := false, drive.status.busy := true }

/-- `enter(ProcessPacketCommand)` (R124). -/
def enterProcessPacketCommand (s : State) : Res :=
  andThen (moveTo .processPacketCommand s) fun s => packetDispatch (inProcessPacket s)

end Sys2Proof.Machine
end

