-- ==== Sys2Proof/Machine/Ports.lean ====
section
/-! DEFINITION. The host port accesses (R150 to R164). -/

namespace Sys2Proof.Machine

/-- A Data read that delivers no word (R151, R301, R304): ignored, it returns 0. -/
def dataReadIgnored (w : Width) (s : State) : Res := ignoredRead w s

/-- Data read, past the width check and the gate (R151). -/
def dataRead (w : Width) (s : State) : Res :=
  if s.drive.state = .pioSendData ∧ s.drive.pio.index < s.drive.pio.size then
    let v := wordAt s.drive.pio.data s.drive.pio.index
    let s : State := { s with drive.pio.index := s.drive.pio.index + 1, drive.byteCount := s.drive.byteCount - 2 }
    andThen
      (if s.drive.pio.index = s.drive.pio.size then
        if s.drive.pio.nextState = .pioSendData then .fault .unmappedTransition else enterContinuation s
      else .next s)
      fun s => .next (s.emit (.readValue w v))
  else dataReadIgnored w s

/-- Data read (R151). -/
def execR16Data (w : Width) (s : State) : Res := dataAccess w s (dataReadIgnored w) (dataRead w)

/-- Data write of `v`, past the width check and the gate (R152); a packet has half as many words as bytes, six. -/
def dataWrite (v : Half) (s : State) : Res :=
  if s.drive.state = .waitPacket then
    let s : State := { s with
      drive.packet := { bytes := setWord s.drive.packet.bytes s.drive.packet.index v, index := s.drive.packet.index + 1 } }
    if s.drive.packet.index = s.cfg.packetBytes / 2 then enterProcessPacketCommand s else .next s
  else if s.drive.state = .pioGetData then
    let s : State := { s with
      drive.pio.data := setWord s.drive.pio.data s.drive.pio.index v, drive.pio.index := s.drive.pio.index + 1 }
    if s.drive.pio.index = s.drive.pio.size then
      if s.drive.pio.nextState = .pioGetData then .fault .unmappedTransition else enterContinuation s
    else .next s
  else ignoredStep s

/-- Data write (R152). -/
def execW16Data (w : Width) (v : BitVec 32) (s : State) : Res :=
  dataAccess w s ignoredStep (dataWrite (v.setWidth 16))

/-- Error read (R153). -/
def execR8Error (w : Width) (s : State) : Res :=
  portRead w s fun s => (errorByte s.drive.sense.key s.drive.error, s)

/-- Features write (R154). -/
def execW8Features (w : Width) (v : BitVec 32) (s : State) : Res :=
  portWrite w v s fun b s => .next { s with drive.features := b }

/-- InterruptReason read (R155): bits 7:1 are a draw. -/
def execR8InterruptReason (w : Width) (s : State) : Res :=
  portRead w s fun s => (ireasonByte s.drive.ireasonCod (Config.drawByte s.draws 0), s.nextDraw)

/-- SectorCount read (R156). -/
def execR8SectorCount (w : Width) (s : State) : Res := portRead w s fun s => (s.drive.sectorCount, s)

/-- SectorCount write (R156). -/
def execW8SectorCount (w : Width) (v : BitVec 32) (s : State) : Res :=
  portWrite w v s fun b s => .next { s with drive.sectorCount := b }

/-- SectorNumber read (R157). -/
def execR8SectorNumber (w : Width) (s : State) : Res := portRead w s fun s => (s.drive.sectorNumber, s)

/-- SectorNumber write (R157): both nibbles. -/
def execW8SectorNumber (w : Width) (v : BitVec 32) (s : State) : Res :=
  portWrite w v s fun b s => .next { s with drive.sectorNumber := b }

/-- ByteCountLow read (R158). -/
def execR8ByteCountLow (w : Width) (s : State) : Res :=
  portRead w s fun s => (s.drive.byteCount.extractLsb' 0 8, s)

/-- ByteCountLow write (R158): the high half is unchanged. -/
def execW8ByteCountLow (w : Width) (v : BitVec 32) (s : State) : Res :=
  portWrite w v s fun b s => .next { s with drive.byteCount := (s.drive.byteCount.extractLsb' 8 8 ++ b : BitVec 16) }

/-- ByteCountHigh read (R159). -/
def execR8ByteCountHigh (w : Width) (s : State) : Res :=
  portRead w s fun s => (s.drive.byteCount.extractLsb' 8 8, s)

/-- ByteCountHigh write (R159): the low half is unchanged. -/
def execW8ByteCountHigh (w : Width) (v : BitVec 32) (s : State) : Res :=
  portWrite w v s fun b s => .next { s with drive.byteCount := (b ++ s.drive.byteCount.extractLsb' 0 8 : BitVec 16) }

/-- DriveSelect read (R160). -/
def execR8DriveSelect (w : Width) (s : State) : Res := portRead w s fun s => (s.drive.driveSelect, s)

/-- DriveSelect write (R160): performed even while the slave pattern is set (R150). -/
def execW8DriveSelect (w : Width) (v : BitVec 32) (s : State) : Res :=
  if w = .w32 then .refused .badAccessWidth
  else .next { s with drive.driveSelect := v.setWidth 8 }

/-- Status read (R161): it cancels both interrupt lines. -/
def execR8Status (w : Width) (s : State) : Res :=
  portRead w s fun s =>
    (statusByte s.drive.status (Config.drawByte s.draws 0),
     cancelLine .dmaComplete (cancelLine .commandComplete s.nextDraw))

/-- Command write (R162): a command in `WaitCommand`, the fault of R133 in any other state. -/
def execW8Command (w : Width) (v : BitVec 32) (s : State) : Res :=
  portWrite w v s fun b s =>
    if s.drive.state = .waitCommand then enterProcessAtaCommand { s with drive.ataCommand := b }
    else .fault .unmappedTransition

/-- AltStatus read (R163): the same byte, no side effect, the draws fresh. -/
def execR8AltStatus (w : Width) (s : State) : Res :=
  portRead w s fun s => (statusByte s.drive.status (Config.drawByte s.draws 0), s.nextDraw)

/-- DeviceControl write (R164): no effect for any value; R301 lists it as ignored. -/
def execW8DeviceControl (w : Width) (v : BitVec 32) (s : State) : Res :=
  portWrite w v s fun _ s => ignoredStep s

/-- A host access that reaches no port (R54): ignored; 32 bits or more is refused first (R53, R316; log entry 15). -/
def unmappedAccess (w : Width) (d : Dir) (s : State) : Res :=
  if w = .w32 then .refused .badAccessWidth
  else match d with
    | .read => ignoredRead w s
    | .write => ignoredStep s

end Sys2Proof.Machine
end

