-- ==== Sys2Proof/Machine/Agents.lean ====
section
/-! DEFINITION. The other agents: the DMA engine (R252 to R258), the audio player (R280 to R282), the swap callback
(R344) and the environment (R340 to R343). A callback that is not scheduled takes no step (log entry 3). -/

namespace Sys2Proof.Machine

/-- A write of the DMA collaborator's address, length and direction registers (R33, R97 `DMA.set`). -/
def dmaSetRegisters (addr length direction : BitVec 32) (s : State) : State :=
  { s with dma.addr := addr, dma.length := length, dma.direction := direction }

/-- DMA.start (R252). -/
def execDmaStart (s : State) : Res :=
  if s.dma.enable = false then ignoredStep s
  else if s.dma.start = true then ignoredStep s
  else .next { s with
    dma.start := true
    dma.transferred := 0
    dma.cursor := s.dma.addr
    drive.dmaScheduled := true }

/-- DMA.enable (R253): 0 while started aborts, and nothing else. -/
def execDmaEnable (v : Bool) (s : State) : Res :=
  .next { s with dma.enable := v, dma.start := s.dma.start && v }

/-- Unschedule the DMA tick (R254). -/
def dmaUnschedule (s : State) : State := { s with drive.dmaScheduled := false }

/-- Step 1 of the tick (R254): refill the cache if it is empty and sectors remain. -/
def dmaRefill (s : State) : State :=
  if s.drive.cache.avail = 0 ∧ s.drive.rr.remaining ≠ 0 then fillCache s else s

/-- The bytes a tick moves (R254 step 2): bounded by the chunk, the cache and what is left of the burst. -/
def dmaCount (s : State) : Nat :=
  min s.cfg.dmaChunkBytes (min s.drive.cache.avail (s.dma.length.toNat - s.dma.transferred.toNat))

/-- Step 2 of the tick (R254): store `n` bytes of the cache and advance both cursors. -/
def dmaMove (n : Nat) (s : State) : State :=
  let s := hostMemWrite s.dma.cursor (bufSlice s.drive.cache.bytes s.drive.cache.rd n) n s
  { s with
    drive.cache.rd := s.drive.cache.rd + n
    drive.cache.avail := s.drive.cache.avail - n
    dma.cursor := s.dma.cursor + BitVec.ofNat 32 n }

/-- Step 3 of the tick (R254): count, and at the burst's length clear the start flag and raise the line. -/
def dmaCountUp (n : Nat) (s : State) : State :=
  let s : State := { s with dma.transferred := s.dma.transferred + BitVec.ofNat 32 n }
  if s.dma.transferred = s.dma.length then raiseLine .dmaComplete { s with dma.start := false } else s

/-- Step 5 of the tick (R254): go on only while started and in `ReadSectorDma`. -/
def dmaReschedule (s : State) : State :=
  if s.dma.start = false ∨ s.drive.state ≠ .readSectorDma then dmaUnschedule s else s

/-- Steps 1 to 5 of the tick (R254). -/
def dmaChunk (s : State) : Res :=
  let s := dmaRefill s
  let n := dmaCount s
  let s := dmaCountUp n (dmaMove n s)
  andThen (if s.drive.rr.remaining = 0 ∧ s.drive.cache.avail = 0 then enterProcessPacketDone s else .next s)
    fun s => .next (dmaReschedule s)

/-- The DMA tick (R254), enabled iff `dmaScheduled`. -/
def execTickDma (s : State) : Res :=
  if s.drive.dmaScheduled = false then .next s
  else if s.dma.start = false ∨ s.dma.enable = false then .next (dmaUnschedule s)
  else if s.drive.state ≠ .readSectorDma then .next (dmaUnschedule s)
  else if s.dma.direction ≠ s.cfg.dmaToHost then .next (dmaUnschedule s)
  else dmaChunk s

/-- `EndReached()` (R281). -/
def audioEndReached (s : State) : State :=
  if s.drive.cdda.repeatCount = 0 then setDiscStatus .paused { s with drive.cdda.status := .terminated }
  else { s with
    drive.cdda.repeatCount :=
      if s.drive.cdda.repeatCount = s.cfg.repeatInfinite then s.cfg.repeatInfinite else s.drive.cdda.repeatCount - 1
    drive.cdda.currentFad := s.drive.cdda.startFad }

/-- The audio tick (R280, R282), always enabled. -/
def execTickAudio (s : State) : Res :=
  if s.drive.cdda.status = .playing then
    let out := mediaSectors s s.drive.cdda.currentFad 1 s.cfg.sectorAudio
    let s : State := { s.nextDraw with drive.cdda.currentFad := s.drive.cdda.currentFad + 1 }
    let s : State := if s.drive.cdda.endFad.toNat ≤ s.drive.cdda.currentFad.toNat then audioEndReached s else s
    .next (s.emit (.audioSector out))
  else .next (s.emit (.audioSector (List.replicate s.cfg.sectorAudio 0)))

/-- The swap-done callback (R344), enabled iff `discSwapPending`. -/
def execTickSwap (s : State) : Res :=
  if s.drive.discSwapPending = false then .next s
  else .next (unitAttention (setDiscRegister .standby { s with
    drive.discSwapPending := false
    drive.discType := s.media.discType }))

/-- Hard reset (R340). -/
def execEventHardReset (s : State) : Res := .next (fullReset s)

/-- Tray open (R342). -/
def execEventTrayOpen (m : Media) (s : State) : Res := .next (discChange m s)

/-- Tray close (R342). -/
def execEventTrayClose (m : Media) (s : State) : Res := .next (discChange m s)

/-- Media swap begin (R343). -/
def execEventSwapBegin (m : Media) (s : State) : Res :=
  .next (setDiscStatus .busy { fullReset { s with media := m } with drive.discSwapPending := true })

/-- What a step does with an input that is no operation of the opcode table. A packet is never an input, so its length
error cannot arise here; it changes nothing. -/
def runUndecoded (u : Undecoded) (s : State) : Res :=
  match u with
  | .unmappedAccess w d => unmappedAccess w d s
  | .dmaSet a l d => .next (dmaSetRegisters a l d s)
  | .packetLength _ => ignoredStep s

/-- The state an input finds: it has left the queue, and the events of the step before are gone (log entries 1, 5). -/
def takeInput (rest : List Input) (s : State) : State := { s with pending := rest, events := [] }

/-- Put an input before those that are pending. -/
def pushInput (i : Input) (s : State) : State := { s with pending := i :: s.pending }

/-- The state of the device in `WaitPacket` with every word of a packet received but the last (R123, R152). -/
def packetAwaitingLastWord (p : List Byte) (s : State) : State :=
  { s with
    drive.state := .waitPacket
    drive.status.busy := false
    drive.status.ready := false
    drive.status.drq := true
    drive.ireasonCod := true
    drive.packet := { bytes := p.take (s.cfg.packetBytes - 2) ++ [0, 0], index := s.cfg.packetBytes / 2 - 1 } }

/-- The last word of a packet as the value of a bus write, low byte first (R55). -/
def lastPacketWord (c : Cfg) (p : List Byte) : BitVec 32 :=
  (packetByte p (c.packetBytes - 1) ++ packetByte p (c.packetBytes - 2) : Half).setWidth 32

/-- Place a frame so that the very next step runs its operation (log entry 16): an input as the next input, a command
byte as a write of the Command port, a packet as the write of its last word to the Data port of a device that has
received the words before it. A port the map leaves out has no address, and then nothing is placed. -/
def placeFrame (f : Frame) (s : State) : State :=
  match f with
  | .bus i => pushInput i s
  | .ata b =>
    match portAddr s.cfg .command .write with
    | some a => pushInput (.write .w8 a (b.setWidth 32)) s
    | none => s
  | .packet p =>
    match portAddr s.cfg .data .write with
    | some a => pushInput (.write .w16 a (lastPacketWord s.cfg p)) (packetAwaitingLastWord p s)
    | none => s

/-- A step with no input: between agent steps the device does not change (R40; log entry 2). -/
def idleStep (s : State) : State := { s with events := [] }

end Sys2Proof.Machine
end

