-- ==== Sys2Proof/Machine/Dispatch.lean ====
section
/-! DEFINITION. The meaning of every operation: one arm per constructor of `Instr`. -/

namespace Sys2Proof.Machine

def exec (i : Instr) (s : State) : Host.Outcome State Fault Refusal :=
  match i with
  | .nop => Sys2Proof.Machine.execNop s
  | .softReset => Sys2Proof.Machine.execSoftReset s
  | .executeDiagnostic => Sys2Proof.Machine.execExecuteDiagnostic s
  | .packet => Sys2Proof.Machine.execPacket s
  | .identifyDevice => Sys2Proof.Machine.execIdentifyDevice s
  | .setFeatures => Sys2Proof.Machine.execSetFeatures s
  | .identify => Sys2Proof.Machine.execIdentify s
  | .ataUnknown opcode => Sys2Proof.Machine.execAtaUnknown opcode s
  | .ataSwapReject => Sys2Proof.Machine.execAtaSwapReject s
  | .testUnit => Sys2Proof.Machine.execTestUnit s
  | .reqStat offset length => Sys2Proof.Machine.execReqStat offset length s
  | .reqMode offset length => Sys2Proof.Machine.execReqMode offset length s
  | .setMode offset length => Sys2Proof.Machine.execSetMode offset length s
  | .reqError length => Sys2Proof.Machine.execReqError length s
  | .getToc area req => Sys2Proof.Machine.execGetToc area req s
  | .reqSes session length => Sys2Proof.Machine.execReqSes session length s
  | .cdOpen => Sys2Proof.Machine.execCdOpen s
  | .cdPlay ptype start rep stop => Sys2Proof.Machine.execCdPlay ptype start rep stop s
  | .cdSeek ptype target => Sys2Proof.Machine.execCdSeek ptype target s
  | .cdScan => Sys2Proof.Machine.execCdScan s
  | .cdRead flags start count => Sys2Proof.Machine.execCdRead flags start count s
  | .cdRead2 flags start count => Sys2Proof.Machine.execCdRead2 flags start count s
  | .getScd format alloc => Sys2Proof.Machine.execGetScd format alloc s
  | .pktUnknown opcode => Sys2Proof.Machine.execPktUnknown opcode s
  | .cdPlayFad start rep stop => Sys2Proof.Machine.execCdPlayFad start rep stop s
  | .cdPlayMsf start rep stop => Sys2Proof.Machine.execCdPlayMsf start rep stop s
  | .cdPlayResume => Sys2Proof.Machine.execCdPlayResume s
  | .getScdRaw alloc => Sys2Proof.Machine.execGetScdRaw alloc s
  | .getScdQ alloc => Sys2Proof.Machine.execGetScdQ alloc s
  | .getScdMcn alloc => Sys2Proof.Machine.execGetScdMcn alloc s
  | .pktParamError => Sys2Proof.Machine.execPktParamError s
  | .pktMediaAbsent => Sys2Proof.Machine.execPktMediaAbsent s
  | .r16Data w => Sys2Proof.Machine.execR16Data w s
  | .w16Data w v => Sys2Proof.Machine.execW16Data w v s
  | .r8Error w => Sys2Proof.Machine.execR8Error w s
  | .w8Features w v => Sys2Proof.Machine.execW8Features w v s
  | .r8InterruptReason w => Sys2Proof.Machine.execR8InterruptReason w s
  | .r8SectorCount w => Sys2Proof.Machine.execR8SectorCount w s
  | .w8SectorCount w v => Sys2Proof.Machine.execW8SectorCount w v s
  | .r8SectorNumber w => Sys2Proof.Machine.execR8SectorNumber w s
  | .w8SectorNumber w v => Sys2Proof.Machine.execW8SectorNumber w v s
  | .r8ByteCountLow w => Sys2Proof.Machine.execR8ByteCountLow w s
  | .w8ByteCountLow w v => Sys2Proof.Machine.execW8ByteCountLow w v s
  | .r8ByteCountHigh w => Sys2Proof.Machine.execR8ByteCountHigh w s
  | .w8ByteCountHigh w v => Sys2Proof.Machine.execW8ByteCountHigh w v s
  | .r8DriveSelect w => Sys2Proof.Machine.execR8DriveSelect w s
  | .w8DriveSelect w v => Sys2Proof.Machine.execW8DriveSelect w v s
  | .r8Status w => Sys2Proof.Machine.execR8Status w s
  | .w8Command w v => Sys2Proof.Machine.execW8Command w v s
  | .r8AltStatus w => Sys2Proof.Machine.execR8AltStatus w s
  | .w8DeviceControl w v => Sys2Proof.Machine.execW8DeviceControl w v s
  | .dmaStart => Sys2Proof.Machine.execDmaStart s
  | .dmaEnable v => Sys2Proof.Machine.execDmaEnable v s
  | .tickDma => Sys2Proof.Machine.execTickDma s
  | .tickAudio => Sys2Proof.Machine.execTickAudio s
  | .tickSwap => Sys2Proof.Machine.execTickSwap s
  | .eventHardReset => Sys2Proof.Machine.execEventHardReset s
  | .eventTrayOpen media => Sys2Proof.Machine.execEventTrayOpen media s
  | .eventTrayClose media => Sys2Proof.Machine.execEventTrayClose media s
  | .eventSwapBegin media => Sys2Proof.Machine.execEventSwapBegin media s

end Sys2Proof.Machine
end

