-- ==== Sys2Proof/Machine/Step.lean ====
section
/-! DEFINITION. One step of the machine: it takes the next input of the agents, decodes it and runs it as one atomic
step (R2, R62). The device fetches nothing (R50, R64). -/

namespace Sys2Proof.Machine

/-- One step (R2, R62). -/
def step (s : State) : Host.Outcome State Fault Refusal :=
  match s.pending with
  | [] => .next (idleStep s)
  | i :: rest =>
    match decodeInput s.cfg i with
    | .ok instr => exec instr (takeInput rest s)
    | .error u => runUndecoded u (takeInput rest s)

/-- The state with an operation of the opcode table where the next step takes it (log entry 16). -/
def State.withFetchWord (s : State) (nbits w : Nat) : State := placeFrame (tableFrame s.cfg nbits w) s

end Sys2Proof.Machine
end

