-- ==== Sys2Proof/Safety.lean ====
section
/-! DEFINITION. What counts as a good state and a good run, in the terms the statements use: stable states and their
status bits (R136, R137), the invariant of every stable state, repeated operations, and what a run has put out. -/

namespace Sys2Proof.Machine

/-- The five states the device rests in between agent steps (R136). -/
def stable : Proto → Bool
  | .waitCommand | .waitPacket | .pioSendData | .pioGetData | .readSectorDma => true
  | _ => false

/-- The row of the table of R137 for the state the device is in; a state that is not stable has no row. -/
abbrev StatusRow (d : DriveState) : Prop :=
  match d.state with
  | .waitCommand => d.status.busy = false ∧ d.status.ready = true ∧ d.status.drq = false
  | .waitPacket => d.status.busy = false ∧ d.status.ready = false ∧ d.status.drq = true ∧ d.ireasonCod = true
  | .pioSendData | .pioGetData =>
    d.status.busy = false ∧ d.status.ready = false ∧ d.status.drq = true ∧ d.ireasonCod = false
  | .readSectorDma => d.status.busy = true ∧ d.status.ready = false ∧ d.status.drq = false ∧ d.ireasonCod = true
  | _ => False

/-- The packet buffer is sound (R23): `PACKET_BYTES` bytes, at most as many words as these make (six of the document's
twelve bytes), and fewer while words are awaited. -/
abbrev PacketSound (c : Cfg) (d : DriveState) : Prop :=
  d.packet.bytes.length = c.packetBytes ∧ d.packet.index ≤ c.packetBytes / 2 ∧
  (d.state = .waitPacket → d.packet.index < c.packetBytes / 2)

/-- The PIO buffer is sound (R24, R25): the indices are in range, the continuation is one of the three the rules store,
a transfer in progress has words left and a continuation that R132 lists. -/
abbrev PioSound (c : Cfg) (d : DriveState) : Prop :=
  d.pio.index ≤ d.pio.size ∧ 2 * d.pio.size ≤ c.pioBufBytes ∧
  (d.pio.nextState = .pioEnd ∨ d.pio.nextState = .readSectorPio ∨ d.pio.nextState = .processSetMode) ∧
  (d.state = .pioSendData →
    d.pio.index < d.pio.size ∧ (d.pio.nextState = .pioEnd ∨ d.pio.nextState = .readSectorPio)) ∧
  (d.state = .pioGetData → d.pio.index < d.pio.size ∧ d.pio.nextState = .processSetMode)

/-- The mode block is sound (R30, R131): its size is the configuration's, and what SET_MODE will write stays inside its
first `MODE_WRITABLE_BYTES` bytes. -/
abbrev ModeSound (c : Cfg) (d : DriveState) : Prop :=
  d.modeBlock.length = c.modeBlockBytes ∧ d.setModeOffset ≤ c.modeWritableBytes ∧
  (d.state = .pioGetData → d.setModeOffset + 2 * d.pio.size ≤ c.modeWritableBytes)

/-- The sector cache is sound (R27): what it holds lies inside its capacity of `CACHE_SECTORS` raw sectors. -/
abbrev CacheSound (c : Cfg) (d : DriveState) : Prop := d.cache.rd + d.cache.avail ≤ c.cacheSectors * c.sectorRaw

/-- The invariant of every state between agent steps: the configuration meets R5, host memory is in canonical form, the
device is in a stable state with that state's status bits (R136, R137), its buffers are sound, and a media swap is
pending only in `WaitCommand` (R344). -/
abbrev State.Inv (s : State) : Prop :=
  s.cfg.Wf ∧ Memory.wf s.hostMem ∧ stable s.drive.state = true ∧ StatusRow s.drive ∧
  PacketSound s.cfg s.drive ∧ PioSound s.cfg s.drive ∧ ModeSound s.cfg s.drive ∧
  CacheSound s.cfg s.drive ∧ (s.drive.discSwapPending = true → s.drive.state = .waitCommand)

/-- One operation, `n` times, stopping where it stops. -/
def repeatExec (i : Instr) : Nat → State → Res
  | 0, s => .next s
  | n + 1, s => andThen (exec i s) (repeatExec i n)

/-- The values read, in order. -/
def readValues (es : List Event) : List (BitVec 16) :=
  es.filterMap fun e => match e with
    | .readValue _ v => some v
    | _ => none

/-- The audio sectors put out, in order. -/
def audioSectors (es : List Event) : List (List Byte) :=
  es.filterMap fun e => match e with
    | .audioSector b => some b
    | _ => none

/-- The bytes stored in host memory, in order. -/
def storedBytes (es : List Event) : List Byte :=
  es.flatMap fun e => match e with
    | .hostMemWrite _ b => b
    | _ => []

/-- The stores among the events go to consecutive addresses: the first to `addr`, each other where the one before it
ended (R254, R60; addresses wrap at 32 bits, log entry 12). -/
def storesFrom (addr : Addr) : List Event → Bool
  | [] => true
  | .hostMemWrite a b :: es => a == addr && storesFrom (addr + BitVec.ofNat 32 b.length) es
  | _ :: es => storesFrom addr es

/-- How many bytes a DMA read has still to deliver (R254, R256): those in the cache and those of the sectors not read. -/
def outstanding (s : State) : Nat :=
  s.drive.cache.avail + s.drive.rr.remaining.toNat * sectorBytes s.cfg s.drive.rr.sectorSize

/-- The inputs that reset the device fully (R37): hard reset (R340), tray open and close (R342), media swap (R343). -/
def fullResetInput : Input → Bool
  | .hardReset | .trayOpen _ | .trayClose _ | .swapBegin _ => true
  | _ => false

/-! ### How a command ends, written out field by field -/

/-- The state after an ATA command that completes at once (R181, R121), with the abort flag and the check bit it reports. -/
def ataDone (abort check : Bool) (s : State) : State := { s with
  drive.state := .waitCommand
  drive.status.busy := false
  drive.status.ready := true
  drive.status.check := check
  drive.error.abort := abort
  irq.commandComplete := true
  events := s.events ++ [.raise .commandComplete] }

/-- The state after `ProcessPacketDone` and `WaitCommand` (R130, R121). -/
def packetDone (s : State) : State := { s with
  drive.state := .waitCommand
  drive.status.busy := false
  drive.status.ready := true
  drive.ireasonCod := true
  irq.commandComplete := true
  events := s.events ++ [.raise .commandComplete] }

/-- The state with a PIO window of the bytes `b` open for the host to read, `next` to follow (R134, R125). -/
def windowOpen (b : List Byte) (next : Proto) (s : State) : State := { s with
  drive.state := .pioSendData
  drive.pio := { data := b ++ s.drive.pio.data.drop b.length, index := 0, size := b.length / 2, nextState := next }
  drive.byteCount := BitVec.ofNat 16 (2 * (b.length / 2))
  drive.ireasonCod := false
  drive.status.drq := true
  drive.status.busy := false
  irq.commandComplete := s.irq.commandComplete || s.cfg.irqOnPioReady
  events := s.events ++ (if s.cfg.irqOnPioReady then [.raise .commandComplete] else []) }

/-- The state after a command has staged the reply `b` (R134): a window, or, with less than one word to read, the end of
the command through `PioEnd` (R129). -/
def replied (b : List Byte) (s : State) : State :=
  if 2 ≤ b.length then windowOpen b .pioEnd s
  else packetDone { s with
    drive.pio := { data := b ++ s.drive.pio.data.drop b.length, index := 0, size := 0, nextState := .pioEnd }
    drive.status.drq := false }

/-- The bytes a DMA read has still to deliver, in order: the batches of up to `CACHE_SECTORS` sectors the refills will read
(R251, R254), the first with draw number `draw` (log entry 9). -/
def batches (s : State) (size : Nat) : Nat → Nat → Fad → Nat → List Byte
  | 0, _, _, _ => []
  | fuel + 1, draw, start, remaining =>
    if remaining = 0 then []
    else
      let n := min remaining s.cfg.cacheSectors
      mediaSectors { s with draws := draw } start n size
        ++ batches s size fuel (draw + 1) (start + BitVec.ofNat 32 n) (remaining - n)

end Sys2Proof.Machine
end

