-- ==== Sys2Proof/Certificates/Slice0/Obligations.lean ====
section
/-! DEFINITION. The statements for the provers. An operation's statement gives its next state field by field, so it says
what the operation writes, that it writes nothing else (its frame: `drive`, `dma`, `irq`, `hostMem`, `media`, `cfg`,
`pending`, `events`, `draws`), and that it completes. ATA commands are stated in `ProcessAtaCommand` and packet commands
in `ProcessPacketCommand`, where the device runs them (R122, R124; log entry 20); `CommandWriteRuns` and `SixthWordRuns`
carry them to the host's accesses. The numbers and codes of R5, R101 and R102 are those of the state's configuration, so
a statement holds for every value of them; `Cfg.ref` has the document's. -/

section

open Sys2Proof Sys2Proof.Machine

/-! ### Encoding -/

/-- Decoding an encoded well-formed operation gives it back, under every configuration that meets R5 (R80 to R91, R51)
and the bounds of log entry 21. A port that stands at two offsets is encoded at the first one listed (log entry 32). -/
def Obligations.DecodeEncode : Prop :=
  ∀ (c : Cfg) (i : Instr) (f : Frame),
    c.Wf → WellFormed c i = true → encode c i = some f → decode c f = .ok i

/-- Every command byte and every packet decodes to a well-formed operation of its own layer, and a command byte is what
its operation encodes to (R80, R82, R84, R95, R96). -/
def Obligations.DecodeWellFormed : Prop :=
  ∀ (c : Cfg) (b : Byte) (p : List Byte), c.Wf → p.length = c.packetBytes →
    (∃ i, decode c (.ata b) = .ok i ∧ i.format = .ata ∧ WellFormed c i = true ∧ encode c i = some (.ata b)) ∧
    (∃ i, decode c (.packet p) = .ok i ∧ i.format = .pkt12 ∧ WellFormed c i = true)

/-- Words written out from the tables and layouts of R51 and R82 to R91 decode to the operations they stand for. -/
def Obligations.DecodeWords : Prop :=
  decode Cfg.ref (.ata 0xA0) = .ok .packet ∧
  decode Cfg.ref (.ata 0xEF) = .ok .setFeatures ∧
  decode Cfg.ref (.packet [0x14, 0x01, 0x00, 0x00, 0x98, 0x01, 0, 0, 0, 0, 0, 0]) = .ok (.getToc true 408) ∧
  decode Cfg.ref (.packet [0x12, 0x00, 0x04, 0x00, 0x06, 0x00, 0, 0, 0, 0, 0, 0]) = .ok (.setMode 4 6) ∧
  decode Cfg.ref (.packet [0x30, 0x20, 0x00, 0xB0, 0x5E, 0, 0, 0, 0x00, 0x00, 0x0A, 0]) =
    .ok (.cdRead ⟨false, 0, false, true, false, false⟩ ⟨0x00, 0xB0, 0x5E⟩ 10) ∧
  decode Cfg.ref (.packet [0x20, 0x01, 0x00, 0xB0, 0x5E, 0x00, 0x03, 0x00, 0x00, 0xB1, 0x00, 0]) =
    .ok (.cdPlayFad ⟨0x00, 0xB0, 0x5E⟩ 3 ⟨0x00, 0xB1, 0x00⟩) ∧
  decode Cfg.ref (.bus (.read .w8 0x5F709C)) = .ok (.r8Status .w8) ∧
  decode Cfg.ref (.bus (.write .w8 0x5F709C 0xA0)) = .ok (.w8Command .w8 0xA0) ∧
  decode Cfg.ref (.bus .tickDma) = .ok .tickDma

/-- `slice` (R99): the result is the contiguous part of the record from `off` on, cut at the record's end; it is empty
when `off` is at or past the end or `len` is 0, and has length `len` exactly when `off + len` stays inside or `len` is
0. The last case is not in R99's sentence, which fails of its own definition for an `off` past the end and a `len` of 0:
the corner is corrected here (log entry 31). -/
def Obligations.SliceIsContiguous : Prop :=
  ∀ (r : List Byte) (off len : Nat),
    sliceOf r off len = (r.drop off).take len ∧
    (∀ k, k < (sliceOf r off len).length → off + k < r.length ∧ (sliceOf r off len)[k]? = r[off + k]?) ∧
    (off ≥ r.length ∨ len = 0 → sliceOf r off len = []) ∧
    ((sliceOf r off len).length = len ↔ off + len ≤ r.length ∨ len = 0)

/-! ### The state machine -/

/-- The transitions of R132 are exhaustive: `enter` reaches a state if and only if the pair stands in the table, and any
other pair is the fault of R133. That a run ends there is the model's reading (log entry 19). -/
def Obligations.TransitionTable : Prop :=
  ∀ (s : State) (p : Proto),
    let table : List (Proto × Proto) :=
      [(.waitCommand, .processAtaCommand), (.processAtaCommand, .waitCommand), (.processAtaCommand, .waitPacket),
       (.processAtaCommand, .pioSendData), (.processAtaCommand, .pioEnd), (.waitPacket, .processPacketCommand),
       (.processPacketCommand, .processPacketDone), (.processPacketCommand, .pioSendData),
       (.processPacketCommand, .pioEnd), (.processPacketCommand, .pioGetData),
       (.processPacketCommand, .processSetMode), (.processPacketCommand, .readSectorPio),
       (.processPacketCommand, .readSectorDma), (.readSectorPio, .pioSendData), (.readSectorPio, .pioEnd),
       (.pioSendData, .pioEnd), (.pioSendData, .readSectorPio), (.pioGetData, .processSetMode),
       (.processSetMode, .pioEnd), (.pioEnd, .processPacketDone), (.readSectorDma, .processPacketDone),
       (.processPacketDone, .waitCommand)]
    ((s.drive.state, p) ∈ table → moveTo p s = .next { s with drive.state := p }) ∧
    ((s.drive.state, p) ∉ table → moveTo p s = .fault .unmappedTransition)

/-- The entry actions of `PioEnd`, `ProcessPacketDone` and `WaitCommand`, entered from any state that R132 lets them be
entered from (R129, R130, R121). -/
def Obligations.CommandEndEntries : Prop :=
  ∀ s : State,
    (s.drive.state = .processAtaCommand ∨ s.drive.state = .processPacketDone →
      enterWaitCommand s = .next
        { s with drive.state := .waitCommand, drive.status.ready := true, drive.status.busy := false }) ∧
    (s.drive.state = .pioEnd ∨ s.drive.state = .processPacketCommand ∨ s.drive.state = .readSectorDma →
      enterProcessPacketDone s = .next { s with
        drive.state := .waitCommand
        drive.status.ready := true
        drive.status.busy := false
        drive.ireasonCod := true
        irq.commandComplete := true
        events := s.events ++ [.raise .commandComplete] }) ∧
    (s.drive.state = .pioSendData ∨ s.drive.state = .processSetMode ∨ s.drive.state = .processAtaCommand ∨
        s.drive.state = .processPacketCommand ∨ s.drive.state = .readSectorPio →
      enterPioEnd s = .next { s with
        drive.state := .waitCommand
        drive.status.drq := false
        drive.status.ready := true
        drive.status.busy := false
        drive.ireasonCod := true
        irq.commandComplete := true
        events := s.events ++ [.raise .commandComplete] })

/-! ### ATA commands -/

/-- NOP (R182): aborted, check set, the sense unchanged. -/
def Obligations.NopResult : Prop :=
  ∀ s : State, s.drive.state = .processAtaCommand →
    exec .nop s = .next { s with
      drive.state := .waitCommand
      drive.status.busy := false
      drive.status.ready := true
      drive.status.check := true
      drive.error.abort := true
      irq.commandComplete := true
      events := s.events ++ [.raise .commandComplete] }

/-- SOFT_RESET (R183): the task-file bank at its defaults, the signature in the byte count, the disc status `paused` if
a disc is in, and everything else kept. -/
def Obligations.SoftResetResult : Prop :=
  ∀ s : State, s.drive.state = .processAtaCommand →
    exec .softReset s = .next { s with
      drive.state := .waitCommand
      drive.status := { busy := false, ready := true, drq := false, check := false, deviceFault := false }
      drive.error := { ili := false, eom := false, abort := false, mcr := false }
      drive.ireasonCod := false
      drive.features := 0
      drive.sectorCount := 0
      drive.driveSelect := 0
      drive.sense := ⟨s.cfg.skNoSense, 0, 0⟩
      drive.sectorNumber := discFormatCode s.cfg s.drive.discType ++
        (match s.drive.discType with
          | .noDisc => s.cfg.discStatusNodisc
          | .trayOpen => s.cfg.discStatusOpen
          | _ => s.cfg.discStatusPaused)
      drive.cdda.status := .noInfo
      drive.byteCount := s.cfg.sigByteCountHi ++ s.cfg.sigByteCountLo
      irq.commandComplete := true
      events := s.events ++ [.raise .commandComplete] }

/-- PACKET (R185, R123): the packet buffer empty, `drq` and `cod` set, `busy` cleared, no interrupt. -/
def Obligations.PacketResult : Prop :=
  ∀ s : State, s.drive.state = .processAtaCommand →
    exec .packet s = .next { s with
      drive.state := .waitPacket
      drive.packet := { bytes := List.replicate s.cfg.packetBytes 0, index := 0 }
      drive.ireasonCod := true
      drive.status.busy := false
      drive.status.drq := true }

/-- IDENTIFY_DEVICE (R186): abort cleared, check by the ATA policy, the identification block staged. -/
def Obligations.IdentifyDeviceResult : Prop :=
  ∀ s : State, s.drive.state = .processAtaCommand → s.cfg.identifyBlock.length = s.cfg.identifyBytes →
    exec .identifyDevice s = .next (replied s.cfg.identifyBlock { s with
      drive.error.abort := false
      drive.status.check :=
        decide (s.drive.sense.key ∉ [s.cfg.skNoSense, s.cfg.skAborted, s.cfg.skUnitAttention]) })

/-- The other commands that complete at once: EXECUTE_DIAGNOSTIC (R184) reports success whatever the sense, which it
leaves alone; SET_FEATURES (R187) changes no register and takes its check bit from the stale sense; IDENTIFY (R188)
writes the signature and reports an aborted command. -/
def Obligations.SynchronousResults : Prop :=
  ∀ s : State, s.drive.state = .processAtaCommand →
    exec .executeDiagnostic s = .next (ataDone false false s) ∧
    exec .setFeatures s = .next (ataDone false
      (decide (s.drive.sense.key ∉ [s.cfg.skNoSense, s.cfg.skAborted, s.cfg.skUnitAttention])) s) ∧
    exec .identify s = .next (ataDone true true
      { s with drive.byteCount := s.cfg.sigByteCountHi ++ s.cfg.sigByteCountLo })

/-- An unlisted command byte (R189) sets the sense key and nothing else of the sense; a command during a media swap
(R180) sets the reject sense. Both report an aborted command. -/
def Obligations.AtaErrorResult : Prop :=
  ∀ (s : State) (b : Byte), s.drive.state = .processAtaCommand →
    exec (.ataUnknown b) s = .next (ataDone true true { s with drive.sense.key := s.cfg.skIllegalRequest }) ∧
    exec .ataSwapReject s = .next (ataDone true true { s with drive.sense := s.cfg.swapRejectSense })

/-! ### Packet commands -/

/-- TEST_UNIT (R201): check says whether the disc status is `busy`, whatever the sense, which it leaves alone. -/
def Obligations.TestUnitResult : Prop :=
  ∀ s : State, s.drive.state = .processPacketCommand →
    exec .testUnit s = .next (packetDone { s with
      drive.status.check := decide (s.drive.sectorNumber.extractLsb' 0 4 = s.cfg.discStatusBusy) })

/-- CD_OPEN (R208) and CD_SCAN (R209) are acknowledged with no effect. -/
def Obligations.OpenScanResult : Prop :=
  ∀ s : State, s.drive.state = .processPacketCommand →
    exec .cdOpen s = .next { s with
      drive.state := .waitCommand
      drive.status.ready := true
      drive.status.busy := false
      drive.ireasonCod := true
      irq.commandComplete := true
      events := s.events ++ [.raise .commandComplete] } ∧
    exec .cdScan s = exec .cdOpen s

/-- REQ_STAT (R202) stages the status record, REQ_MODE (R203) the mode block as it stands: from `offset` on, at most
`length` bytes. The model's choices: the cut of R202's ten bytes at `STATUS_RECORD_BYTES`, above which they stay ten (log
entry 21), and how the backend answers (log entries 8, 9). -/
def Obligations.ReqStatModeResult : Prop :=
  ∀ (s : State) (offset length : Byte), s.drive.state = .processPacketCommand →
    exec (.reqStat offset length) s = .next (replied
      ((([(s.drive.sectorNumber.extractLsb' 0 4).setWidth 8,
         s.drive.sectorNumber.extractLsb' 4 4 ++ s.drive.cdda.repeatCount,
         0x04,
         (mediaAnswer s (.track s.drive.cdda.currentFad) 4).getD 0 0,
         0x01,
         s.drive.cdda.currentFad.extractLsb' 16 8,
         s.drive.cdda.currentFad.extractLsb' 8 8,
         s.drive.cdda.currentFad.extractLsb' 0 8,
         0x00,
         0x00].take s.cfg.statusRecordBytes).drop offset.toNat).take length.toNat)
      { s with draws := s.draws + 1 }) ∧
    exec (.reqMode offset length) s = .next (replied ((s.drive.modeBlock.drop offset.toNat).take length.toNat) s)

/-- SET_MODE (R204): the offset and the count clamped to the first `MODE_WRITABLE_BYTES` bytes; a window for the words
to come, or the end of the command if there is none (R135, R126). -/
def Obligations.SetModeResult : Prop :=
  ∀ (s : State) (offset length : Byte), s.drive.state = .processPacketCommand →
    exec (.setMode offset length) s =
      (let off := min offset.toNat s.cfg.modeWritableBytes
       let n := min length.toNat (s.cfg.modeWritableBytes - off)
       if 2 ≤ n then .next { s with
         drive.state := .pioGetData
         drive.setModeOffset := off
         drive.pio.index := 0
         drive.pio.size := n / 2
         drive.pio.nextState := .processSetMode
         drive.byteCount := BitVec.ofNat 16 (2 * (n / 2))
         drive.ireasonCod := false
         drive.status.drq := true
         drive.status.busy := false
         irq.commandComplete := s.irq.commandComplete || s.cfg.irqOnPioReady
         events := s.events ++ (if s.cfg.irqOnPioReady then [.raise .commandComplete] else []) }
       else .next (packetDone { s with
         drive.setModeOffset := off
         drive.pio.index := 0
         drive.pio.size := 0
         drive.pio.nextState := .processSetMode
         drive.status.drq := false }))

/-- REQ_ERROR (R205): the record is built from the sense before it is cleared, and the sense is cleared whatever the
length. The cut of R205's ten bytes at `ERROR_RECORD_BYTES`, above which they stay ten, is the model's choice (log entry
21). -/
def Obligations.ReqErrorResult : Prop :=
  ∀ (s : State) (length : Byte), s.drive.state = .processPacketCommand →
    exec (.reqError length) s = .next (replied
      (([0xF0, 0x00, s.drive.sense.key.setWidth 8, 0x00, 0x00, 0x00, 0x00, 0x00, s.drive.sense.asc,
        s.drive.sense.ascq].take s.cfg.errorRecordBytes).take length.toNat)
      { s with drive.sense := ⟨s.cfg.skNoSense, 0, 0⟩ })

/-- GET_TOC (R206): the first `req` bytes of the backend's `TOC_BYTES`; REQ_SES (R207): the disc status and the
backend's bytes, at most `length` of them. How the backend answers is the model's choice (log entries 8, 9), and so is
the record of one byte with `SES_INFO_BYTES` = 0 (log entry 33). -/
def Obligations.TocSessionResult : Prop :=
  ∀ (s : State) (area : Bool) (req : Half) (session length : Byte), s.drive.state = .processPacketCommand →
    exec (.getToc area req) s = .next (replied ((mediaAnswer s (.toc area) s.cfg.tocBytes).take req.toNat)
      { s with draws := s.draws + 1 }) ∧
    exec (.reqSes session length) s = .next (replied
      (((s.drive.sectorNumber.extractLsb' 0 4).setWidth 8 ::
          mediaAnswer s (.session session) (s.cfg.sesInfoBytes - 1)).take length.toNat)
      { s with draws := s.draws + 1 })

/-- GET_SCD (R210 to R213): each format's record, at most the allocation length and the reply buffer of it; a format
other than 0, 1 and 2 is an invalid parameter (R215). How the backend answers is the model's choice (log entries 8, 9).
-/
def Obligations.SubcodeResult : Prop :=
  ∀ (s : State) (alloc : Half) (format : BitVec 4), s.drive.state = .processPacketCommand →
    exec (.getScdRaw alloc) s = .next (replied
      (([0x00, audioStatusCode s.cfg s.drive.cdda.status, 0x00, 0x64] ++ mediaAnswer s (.subchannel 96) 96).take
        (min alloc.toNat s.cfg.scdBufBytes))
      { s with draws := s.draws + 1 }) ∧
    exec (.getScdQ alloc) s = .next (replied
      (let fad := s.drive.rr.startSector - 1
       let tr := mediaAnswer s (.track fad) 4
       [0x00, audioStatusCode s.cfg s.drive.cdda.status, 0x00, 0x0E,
        if s.drive.sectorNumber.toNat / 16 = 0 then 0x01 else 0x41,
        tr.getD 0 0, 0x01, tr.getD 1 0, tr.getD 2 0, tr.getD 3 0, 0x00,
        fad.extractLsb' 16 8, fad.extractLsb' 8 8, fad.extractLsb' 0 8].take (min alloc.toNat s.cfg.scdBufBytes))
      { s with draws := s.draws + 1 }) ∧
    exec (.getScdMcn alloc) s = .next (replied
      ([0x00, audioStatusCode s.cfg s.drive.cdda.status, 0x00, 0x18, 0x02, 0x00, 0x00, 0x00, 0x00,
        0x30, 0x30, 0x30, 0x30, 0x30, 0x30, 0x30, 0x30, 0x30, 0x30, 0x30, 0x30, 0x30, 0x00, 0x00].take
        (min alloc.toNat s.cfg.scdBufBytes)) s) ∧
    exec (.getScd format alloc) s =
      (if format = 0 then exec (.getScdRaw alloc) s
       else if format = 1 then exec (.getScdQ alloc) s
       else if format = 2 then exec (.getScdMcn alloc) s
       else exec .pktParamError s)

/-- The errors of packet commands: an unlisted opcode (R214), an invalid parameter (R215), no disc (R216, which leaves
the abort flag). -/
def Obligations.PacketErrorResult : Prop :=
  ∀ (s : State) (b : Byte), s.drive.state = .processPacketCommand →
    exec (.pktUnknown b) s = .next (packetDone { s with
      drive.sense := ⟨s.cfg.skIllegalRequest, s.cfg.ascInvalidCommand, 0⟩
      drive.error.abort := true
      drive.status.check := true }) ∧
    exec .pktParamError s = .next (packetDone { s with
      drive.sense := ⟨s.cfg.skIllegalRequest, s.cfg.ascInvalidField, 0⟩
      drive.error.abort := true
      drive.status.check := true }) ∧
    exec .pktMediaAbsent s = .next (packetDone { s with
      drive.sense := ⟨s.cfg.skNotReady, s.cfg.ascNoMedium, 0⟩
      drive.status.check := true })

/-- CD_READ and CD_READ2 by PIO (R230 to R232, R127): the first window, of at most `PIO_BURST_SECTORS` sectors; with a
count of 0 the end of the command. How the backend answers is the model's choice (log entries 8, 9). -/
def Obligations.CdReadPioResult : Prop :=
  ∀ (s : State) (flags : ReadFlags) (start : Addr3) (count : BitVec 24) (count2 : Half),
    s.cfg.Wf → s.drive.state = .processPacketCommand → s.drive.features.getLsbD 0 = false →
    let result (n : Nat) : Res :=
      let fad := addrOf flags.msf start
      let size := sectorSizeOf s.cfg flags
      let k := min n s.cfg.pioBurstSectors
      let t : State := { s with
        draws := s.draws + 1
        drive.rr := { startSector := fad + BitVec.ofNat 32 k, remaining := BitVec.ofNat 32 (n - k), sectorSize := size } }
      if n = 0 then .next (replied [] t)
      else .next (windowOpen (mediaSectors s fad k (sectorBytes s.cfg size))
        (if s.cfg.pioBurstSectors < n then .readSectorPio else .pioEnd) t)
    exec (.cdRead flags start count) s = result count.toNat ∧
    exec (.cdRead2 flags start count2) s = result count2.toNat

/-- CD_READ and CD_READ2 by DMA (R230 to R232, R128, R251): the first refill of at most `CACHE_SECTORS` sectors, no
status bit written, no interrupt. How the backend answers is the model's choice (log entries 8, 9, 13). -/
def Obligations.CdReadDmaResult : Prop :=
  ∀ (s : State) (flags : ReadFlags) (start : Addr3) (count : BitVec 24) (count2 : Half),
    s.drive.state = .processPacketCommand → s.drive.features.getLsbD 0 = true →
    let result (n : Nat) : Res :=
      let fad := addrOf flags.msf start
      let size := sectorSizeOf s.cfg flags
      let k := min n s.cfg.cacheSectors
      .next { s with
        draws := s.draws + 1
        drive.state := .readSectorDma
        drive.rr := { startSector := fad + BitVec.ofNat 32 k, remaining := BitVec.ofNat 32 (n - k), sectorSize := size }
        drive.cache := {
          bytes := mediaSectors s fad k (sectorBytes s.cfg size) ++ s.drive.cache.bytes.drop (k * sectorBytes s.cfg size)
          rd := 0
          avail := k * sectorBytes s.cfg size } }
    exec (.cdRead flags start count) s = result count.toNat ∧
    exec (.cdRead2 flags start count2) s = result count2.toNat

/-- Address assembly and sector size selection (R92, R93), the second under the reference configuration, whose sizes are
the document's 2340 and 2048. -/
def Obligations.AddressAndSize : Prop :=
  ∀ (b : Addr3) (f : ReadFlags),
    (addrOf false b).toNat = 65536 * b.b0.toNat + 256 * b.b1.toNat + b.b2.toNat ∧
    (addrOf true b).toNat = b.b0.toNat * 60 * 75 + b.b1.toNat * 75 + b.b2.toNat ∧
    sectorBytes Cfg.ref (sectorSizeOf Cfg.ref f) =
      if f.header = true ∧ f.subheader = true ∧ f.data = true ∧ f.expectedType = 3 ∧ f.other = false then 2340 else 2048

/-- CD_PLAY (R233 to R235): with an address the player starts there; a resume goes on, or terminates past the end; any
other type is an invalid parameter. -/
def Obligations.CdPlayResult : Prop :=
  ∀ (s : State) (start stop : Addr3) (rep : BitVec 4) (ptype : BitVec 3), s.drive.state = .processPacketCommand →
    let playing (msf : Bool) : Res := .next (packetDone { s with
      drive.cdda := {
        status := .playing
        currentFad := addrOf msf start
        startFad := addrOf msf start
        endFad := addrOf msf stop
        repeatCount := rep }
      drive.sectorNumber := s.drive.sectorNumber.extractLsb' 4 4 ++ s.cfg.discStatusPlaying })
    exec (.cdPlayFad start rep stop) s = playing false ∧
    exec (.cdPlayMsf start rep stop) s = playing true ∧
    exec .cdPlayResume s =
      (if s.drive.cdda.currentFad.toNat ≤ s.drive.cdda.endFad.toNat then
        .next (packetDone { s with
          drive.cdda.status := .playing
          drive.sectorNumber := s.drive.sectorNumber.extractLsb' 4 4 ++ s.cfg.discStatusPlaying })
      else .next (packetDone { s with
        drive.cdda.status := .terminated
        drive.sectorNumber := s.drive.sectorNumber.extractLsb' 4 4 ++ s.cfg.discStatusPaused })) ∧
    exec (.cdPlay ptype start rep stop) s =
      (if ptype = 1 then playing false
       else if ptype = 2 then playing true
       else if ptype = 7 then exec .cdPlayResume s
       else exec .pktParamError s)

/-- CD_SEEK (R236): to an address (types 1 and 2), home (3), pause (4); any other type is an invalid parameter. -/
def Obligations.CdSeekResult : Prop :=
  ∀ (s : State) (target : Addr3) (ptype : BitVec 4), s.drive.state = .processPacketCommand →
    exec (.cdSeek ptype target) s =
      (if ptype = 1 ∨ ptype = 2 then .next (packetDone { s with
        drive.cdda.currentFad := addrOf (decide (ptype = 2)) target
        drive.cdda.status := .paused
        drive.sectorNumber := s.drive.sectorNumber.extractLsb' 4 4 ++ s.cfg.discStatusPaused })
      else if ptype = 3 then .next (packetDone { s with
        drive.cdda.startFad := s.cfg.homeFad
        drive.cdda.endFad := s.cfg.homeFad
        drive.cdda.currentFad := s.cfg.homeFad
        drive.cdda.status := .noInfo
        drive.sectorNumber := s.drive.sectorNumber.extractLsb' 4 4 ++ s.cfg.discStatusStandby })
      else if ptype = 4 then .next (packetDone { s with
        drive.cdda.status := .paused
        drive.sectorNumber := s.drive.sectorNumber.extractLsb' 4 4 ++ s.cfg.discStatusPaused })
      else exec .pktParamError s)

/-! ### Host port accesses -/

/-- A Features write stores bits 7:0 and has no other effect (R154). -/
def Obligations.FeaturesWrite : Prop :=
  ∀ (s : State) (w : Width) (v : BitVec 32), w ≠ .w32 → s.drive.driveSelect.getLsbD 4 = false →
    exec (.w8Features w v) s = .next { s with drive.features := v.setWidth 8 }

/-- The other writes that only store (R156 to R159, R52): each its own register, the byte count half by half. -/
def Obligations.RegisterWrites : Prop :=
  ∀ (s : State) (w : Width) (v : BitVec 32), w ≠ .w32 → s.drive.driveSelect.getLsbD 4 = false →
    exec (.w8SectorCount w v) s = .next { s with drive.sectorCount := v.setWidth 8 } ∧
    exec (.w8SectorNumber w v) s = .next { s with drive.sectorNumber := v.setWidth 8 } ∧
    exec (.w8ByteCountLow w v) s = .next { s with
      drive.byteCount := BitVec.ofNat 16 (s.drive.byteCount.toNat / 256 * 256 + v.toNat % 256) } ∧
    exec (.w8ByteCountHigh w v) s = .next { s with
      drive.byteCount := BitVec.ofNat 16 (v.toNat % 256 * 256 + s.drive.byteCount.toNat % 256) }

/-- The reads with no side effect (R153, R155 to R159, R52): each answers its register, zero-extended, and changes
nothing; the Interrupt Reason read draws bits 7:1 of its answer. The draw counter is the model's own (log entry 9). -/
def Obligations.RegisterReads : Prop :=
  ∀ (s : State) (w : Width), w ≠ .w32 → s.drive.driveSelect.getLsbD 4 = false →
    exec (.r8Error w) s = .next { s with events := s.events ++ [.readValue w
      ((s.drive.sense.key ++ BitVec.ofBool s.drive.error.mcr ++ BitVec.ofBool s.drive.error.abort ++
        BitVec.ofBool s.drive.error.eom ++ BitVec.ofBool s.drive.error.ili : BitVec 8).setWidth 16)] } ∧
    exec (.r8SectorCount w) s = .next { s with events := s.events ++ [.readValue w (s.drive.sectorCount.setWidth 16)] } ∧
    exec (.r8SectorNumber w) s = .next
      { s with events := s.events ++ [.readValue w (s.drive.sectorNumber.setWidth 16)] } ∧
    exec (.r8ByteCountLow w) s = .next { s with
      events := s.events ++ [.readValue w (BitVec.ofNat 16 (s.drive.byteCount.toNat % 256))] } ∧
    exec (.r8ByteCountHigh w) s = .next { s with
      events := s.events ++ [.readValue w (BitVec.ofNat 16 (s.drive.byteCount.toNat / 256))] } ∧
    (∃ v : BitVec 16, v.getLsbD 0 = s.drive.ireasonCod ∧ v.toNat < 256 ∧
      exec (.r8InterruptReason w) s = .next
        { s with draws := s.draws + 1, events := s.events ++ [.readValue w v] })

/-- Drive Select (R160): a read answers it; a write stores it even while the slave pattern is set, and nothing else
changes. -/
def Obligations.DriveSelectAccess : Prop :=
  ∀ (s : State) (w : Width) (v : BitVec 32), w ≠ .w32 →
    (s.drive.driveSelect.getLsbD 4 = false →
      exec (.r8DriveSelect w) s = .next
        { s with events := s.events ++ [.readValue w (s.drive.driveSelect.setWidth 16)] }) ∧
    exec (.w8DriveSelect w v) s = .next { s with drive.driveSelect := v.setWidth 8 }

/-- A Status read (R161) answers the status byte and cancels both lines; an AltStatus read (R163) answers the same byte
and has no side effect. Bits 4, 2 and 1 are drawn; the draw counter (log entry 9) and the place of the read value after
the cancels (log entry 5) are the model's choices. -/
def Obligations.StatusReads : Prop :=
  ∀ (s : State) (w : Width), w ≠ .w32 → s.drive.driveSelect.getLsbD 4 = false →
    let byte (d4 d2 d1 : Bool) : BitVec 16 :=
      (BitVec.ofBool s.drive.status.busy ++ BitVec.ofBool s.drive.status.ready ++
        BitVec.ofBool s.drive.status.deviceFault ++ BitVec.ofBool d4 ++ BitVec.ofBool s.drive.status.drq ++
        BitVec.ofBool d2 ++ BitVec.ofBool d1 ++ BitVec.ofBool s.drive.status.check : BitVec 8).setWidth 16
    ∃ d4 d2 d1 : Bool,
      exec (.r8Status w) s = .next { s with
        draws := s.draws + 1
        irq := { commandComplete := false, dmaComplete := false }
        events := s.events ++ [.cancel .commandComplete, .cancel .dmaComplete, .readValue w (byte d4 d2 d1)] } ∧
      exec (.r8AltStatus w) s = .next { s with
        draws := s.draws + 1
        events := s.events ++ [.readValue w (byte d4 d2 d1)] }

/-- A Device Control write has no effect at all, for any value (R164); the model marks it ignored, in an event no agent
sees (log entry 4). -/
def Obligations.DeviceControlWrite : Prop :=
  ∀ (s : State) (w : Width) (v : BitVec 32), w ≠ .w32 →
    exec (.w8DeviceControl w v) s = .next { s with events := s.events ++ [.ignored] }

/-- A Data read (R151, R55): inside a window it delivers the next word, low byte first; the last word of a reply ends
the command, the last word of a window of sectors opens the next window; in any other state the read is ignored and
answers 0. The place of the read value after a raise (log entry 5), the backend's sectors and the draw counter of the
next window (log entries 8, 9) and the mark `ignored` (log entry 4) are the model's choices. -/
def Obligations.DataReadResult : Prop :=
  ∀ s : State, s.drive.driveSelect.getLsbD 4 = false →
    let k := s.drive.pio.index
    let word : BitVec 16 := s.drive.pio.data.getD (2 * k + 1) 0 ++ s.drive.pio.data.getD (2 * k) 0
    let moved : State := { s with drive.pio.index := k + 1, drive.byteCount := s.drive.byteCount - 2 }
    let answered (t : State) : Res := .next { t with events := t.events ++ [.readValue .w16 word] }
    (s.drive.state = .pioSendData → k + 1 < s.drive.pio.size → exec (.r16Data .w16) s = answered moved) ∧
    (s.drive.state = .pioSendData → k + 1 = s.drive.pio.size → s.drive.pio.nextState = .pioEnd →
      exec (.r16Data .w16) s = answered (packetDone { moved with drive.status.drq := false })) ∧
    (s.drive.state = .pioSendData → k + 1 = s.drive.pio.size → s.drive.pio.nextState = .readSectorPio →
      s.drive.rr.remaining ≠ 0 → s.cfg.Wf →
      exec (.r16Data .w16) s = answered
        (let n := min s.drive.rr.remaining.toNat s.cfg.pioBurstSectors
         windowOpen (mediaSectors s s.drive.rr.startSector n (sectorBytes s.cfg s.drive.rr.sectorSize))
          (if s.cfg.pioBurstSectors < s.drive.rr.remaining.toNat then .readSectorPio else .pioEnd)
          { moved with
            draws := s.draws + 1
            drive.rr.startSector := s.drive.rr.startSector + BitVec.ofNat 32 n
            drive.rr.remaining := s.drive.rr.remaining - BitVec.ofNat 32 n })) ∧
    (s.drive.state = .pioSendData → k + 1 = s.drive.pio.size → s.drive.pio.nextState = .readSectorPio →
      s.drive.rr.remaining = 0 →
      exec (.r16Data .w16) s = answered (replied [] { moved with draws := s.draws + 1 })) ∧
    (s.drive.state ≠ .pioSendData ∨ s.drive.pio.size ≤ k →
      exec (.r16Data .w16) s = .next { s with events := s.events ++ [.ignored, .readValue .w16 0] })

/-- A Data write (R152, R131, R55): a packet word before the last is stored, low byte first; a word of SET_MODE's data
is stored, and the last one copies them all into the mode block at the latched offset and ends the command; in any other
state the write is ignored. The mark `ignored` is the model's own (log entry 4). -/
def Obligations.DataWriteResult : Prop :=
  ∀ (s : State) (v : BitVec 32), s.drive.driveSelect.getLsbD 4 = false →
    let lo : Byte := v.setWidth 8
    let hi : Byte := (v >>> 8).setWidth 8
    (s.drive.state = .waitPacket → s.drive.packet.index + 1 < s.cfg.packetBytes / 2 →
      s.drive.packet.bytes.length = s.cfg.packetBytes →
      exec (.w16Data .w16 v) s = .next { s with drive.packet := {
        bytes := (s.drive.packet.bytes.set (2 * s.drive.packet.index) lo).set (2 * s.drive.packet.index + 1) hi
        index := s.drive.packet.index + 1 } }) ∧
    (s.drive.state = .pioGetData → ∃ data : List Byte,
      (∀ j, data.getD j 0 = if j = 2 * s.drive.pio.index then lo
        else if j = 2 * s.drive.pio.index + 1 then hi else s.drive.pio.data.getD j 0) ∧
      (s.drive.pio.index + 1 < s.drive.pio.size →
        exec (.w16Data .w16 v) s = .next
          { s with drive.pio.data := data, drive.pio.index := s.drive.pio.index + 1 }) ∧
      (s.drive.pio.index + 1 = s.drive.pio.size → s.drive.pio.nextState = .processSetMode →
        s.drive.setModeOffset + 2 * s.drive.pio.size ≤ s.drive.modeBlock.length →
        ∃ block : List Byte, block.length = s.drive.modeBlock.length ∧
          (∀ j, block.getD j 0 =
            if s.drive.setModeOffset ≤ j ∧ j < s.drive.setModeOffset + 2 * s.drive.pio.size
            then data.getD (j - s.drive.setModeOffset) 0 else s.drive.modeBlock.getD j 0) ∧
          exec (.w16Data .w16 v) s = .next (packetDone { s with
            drive.pio.data := data
            drive.pio.index := s.drive.pio.index + 1
            drive.modeBlock := block
            drive.status.drq := false }))) ∧
    (s.drive.state ≠ .waitPacket → s.drive.state ≠ .pioGetData →
      exec (.w16Data .w16 v) s = .next { s with events := s.events ++ [.ignored] })

/-- A Command write (R162, R122, R180): in `WaitCommand` it latches the byte and runs the command it decodes to, or the
rejection while a media swap is pending; in any other state it is the fault of R133. In which state a command's meaning
starts, and that the run ends at the fault, are the model's reading (log entries 19, 20). -/
def Obligations.CommandWriteRuns : Prop :=
  ∀ (s : State) (w : Width) (v : BitVec 32), w ≠ .w32 → s.drive.driveSelect.getLsbD 4 = false →
    (s.drive.state = .waitCommand → ∃ i, decode s.cfg (.ata (v.setWidth 8)) = .ok i ∧
      exec (.w8Command w v) s = exec (if s.drive.discSwapPending then .ataSwapReject else i) { s with
        drive.ataCommand := v.setWidth 8
        drive.state := .processAtaCommand
        drive.status.ready := false
        drive.status.busy := true }) ∧
    (s.drive.state ≠ .waitCommand → exec (.w8Command w v) s = .fault .unmappedTransition)

/-- The last packet word, the sixth of twelve bytes (R152, R124, R200): the packet is decoded and its command runs,
after the prologue has taken the check bit from the old sense and cleared the abort flag; a command that needs a disc
runs as the media-absent error if the policy says so and no disc is in. In which state a command's meaning starts is the
model's reading (log entry 20). -/
def Obligations.SixthWordRuns : Prop :=
  ∀ (s : State) (v : BitVec 32), s.cfg.Wf → s.drive.driveSelect.getLsbD 4 = false →
    s.drive.state = .waitPacket → s.drive.packet.index + 1 = s.cfg.packetBytes / 2 →
    s.drive.packet.bytes.length = s.cfg.packetBytes →
    let p : List Byte := s.drive.packet.bytes.take (s.cfg.packetBytes - 2) ++ [v.setWidth 8, (v >>> 8).setWidth 8]
    let t : State := { s with
      drive.packet := { bytes := p, index := s.cfg.packetBytes / 2 }
      drive.state := .processPacketCommand
      drive.status.drq := false
      drive.status.busy := true
      drive.status.check := decide (s.drive.sense.key ∉ [s.cfg.skNoSense, s.cfg.skAborted])
      drive.error.abort := false }
    ∃ i, decode s.cfg (.packet p) = .ok i ∧
      exec (.w16Data .w16 v) s = exec
        (if s.cfg.mediaAbsentPolicy = .notReady ∧ (s.drive.discType = .noDisc ∨ s.drive.discType = .trayOpen) ∧
            p.getD 0 0 ∈ [s.cfg.opPktGetToc, s.cfg.opPktReqSes, s.cfg.opPktGetScd, s.cfg.opPktCdPlay,
              s.cfg.opPktCdSeek, s.cfg.opPktCdRead, s.cfg.opPktCdRead2]
         then .pktMediaAbsent else i) t

/-- Where a Command write leaves the device (R190): in `WaitPacket` after PACKET, in `PioSendData` after
IDENTIFY_DEVICE, in `WaitCommand` after any other, never busy and ready at once, with the interrupts R190 counts. -/
def Obligations.CommandWriteCompletes : Prop :=
  ∀ (s : State) (w : Width) (v : BitVec 32), w ≠ .w32 → s.drive.driveSelect.getLsbD 4 = false →
    s.drive.state = .waitCommand → s.cfg.identifyBlock.length = s.cfg.identifyBytes → 2 ≤ s.cfg.identifyBytes →
    ∃ t es, exec (.w8Command w v) s = .next t ∧ t.events = s.events ++ es ∧
      (t.drive.status.busy && t.drive.status.ready) = false ∧
      (if s.drive.discSwapPending = false ∧ decodeAta s.cfg (v.setWidth 8) = .packet then
        t.drive.state = .waitPacket ∧ es = []
      else if s.drive.discSwapPending = false ∧ decodeAta s.cfg (v.setWidth 8) = .identifyDevice then
        t.drive.state = .pioSendData ∧ es = if s.cfg.irqOnPioReady then [.raise .commandComplete] else []
      else t.drive.state = .waitCommand ∧ es = [.raise .commandComplete])

/-- While the slave pattern is set every read answers 0 and every write but Drive Select's is dropped; nothing changes
(R150). The mark `ignored` is the model's own (log entry 4). -/
def Obligations.SlaveGate : Prop :=
  ∀ (s : State) (w : Width) (v : BitVec 32), s.drive.driveSelect.getLsbD 4 = true → w ≠ .w32 →
    (∀ i ∈ [Instr.r8Error w, .r8InterruptReason w, .r8SectorCount w, .r8SectorNumber w, .r8ByteCountLow w,
        .r8ByteCountHigh w, .r8DriveSelect w, .r8Status w, .r8AltStatus w],
      exec i s = .next { s with events := s.events ++ [.ignored, .readValue w 0] }) ∧
    exec (.r16Data .w16) s = .next { s with events := s.events ++ [.ignored, .readValue .w16 0] } ∧
    (∀ i ∈ [Instr.w16Data .w16 v, .w8Features w v, .w8SectorCount w v, .w8SectorNumber w v, .w8ByteCountLow w v,
        .w8ByteCountHigh w v, .w8Command w v, .w8DeviceControl w v],
      exec i s = .next { s with events := s.events ++ [.ignored] })

/-- An access of a width the port does not take is refused, whatever the state: 8 or 32 bits to Data, 32 bits to any
port (R53, R306). That the width is looked at first is log entry 15. -/
def Obligations.BadWidth : Prop :=
  ∀ (s : State) (w : Width) (v : BitVec 32),
    (w ≠ .w16 → exec (.r16Data w) s = .refused .badAccessWidth ∧ exec (.w16Data w v) s = .refused .badAccessWidth) ∧
    (∀ i ∈ [Instr.r8Error .w32, .r8InterruptReason .w32, .r8SectorCount .w32, .r8SectorNumber .w32,
        .r8ByteCountLow .w32, .r8ByteCountHigh .w32, .r8DriveSelect .w32, .r8Status .w32, .r8AltStatus .w32,
        .w8Features .w32 v, .w8SectorCount .w32 v, .w8SectorNumber .w32 v, .w8ByteCountLow .w32 v,
        .w8ByteCountHigh .w32 v, .w8DriveSelect .w32 v, .w8Command .w32 v, .w8DeviceControl .w32 v],
      exec i s = .refused .badAccessWidth)

/-! ### The other agents -/

/-- DMA.start (R252): ignored while disabled or running; else the burst begins at the programmed address. The mark
`ignored` is the model's own (log entry 4). -/
def Obligations.DmaStartResult : Prop :=
  ∀ s : State,
    exec .dmaStart s =
      (if s.dma.enable = false ∨ s.dma.start = true then .next { s with events := s.events ++ [.ignored] }
       else .next { s with
        dma.start := true
        dma.transferred := 0
        dma.cursor := s.dma.addr
        drive.dmaScheduled := true })

/-- DMA.enable (R253, R67): it stores the enable flag, and 0 also clears the start flag; a second `DMA.enable 0` does
nothing more. -/
def Obligations.DmaEnableResult : Prop :=
  ∀ s : State,
    exec (.dmaEnable true) s = .next { s with dma.enable := true } ∧
    exec (.dmaEnable false) s = .next { s with dma.enable := false, dma.start := false } ∧
    ∀ t, exec (.dmaEnable false) s = .next t → exec (.dmaEnable false) t = .next t

/-- The DMA tick's guards (R254): not scheduled, it is no step (log entry 3); scheduled but aborted, out of
`ReadSectorDma` or in another direction, it unschedules itself and does nothing else. -/
def Obligations.DmaTickStops : Prop :=
  ∀ s : State,
    (s.drive.dmaScheduled = false → exec .tickDma s = .next s) ∧
    (s.drive.dmaScheduled = true →
      s.dma.start = false ∨ s.dma.enable = false ∨ s.drive.state ≠ .readSectorDma ∨ s.dma.direction ≠ s.cfg.dmaToHost →
      exec .tickDma s = .next { s with drive.dmaScheduled := false })

/-- A DMA tick that runs (R254 steps 1 to 5, R251, R60): the refill, the chunk stored and counted, the end of the burst,
the end of the command, the rescheduling. The model's choices: how the backend answers and how draws are counted (log
entries 8, 9), that addresses wrap (12), that cache bytes beyond the list are 0 (13), and that a burst whose length was
rewritten below its count has no byte left (14). -/
def Obligations.DmaTickMoves : Prop :=
  ∀ s : State, s.drive.dmaScheduled = true → s.dma.start = true → s.dma.enable = true →
    s.drive.state = .readSectorDma → s.dma.direction = s.cfg.dmaToHost →
    let refill := s.drive.cache.avail = 0 ∧ s.drive.rr.remaining ≠ 0
    let k := min s.drive.rr.remaining.toNat s.cfg.cacheSectors
    let size := sectorBytes s.cfg s.drive.rr.sectorSize
    let cache : SectorCache := if refill then {
        bytes := mediaSectors s s.drive.rr.startSector k size ++ s.drive.cache.bytes.drop (k * size)
        rd := 0
        avail := k * size } else s.drive.cache
    let rr : ReadRequest := if refill then { s.drive.rr with
        startSector := s.drive.rr.startSector + BitVec.ofNat 32 k
        remaining := s.drive.rr.remaining - BitVec.ofNat 32 k } else s.drive.rr
    let n := min s.cfg.dmaChunkBytes (min cache.avail (s.dma.length.toNat - s.dma.transferred.toNat))
    let bytes := bufSlice cache.bytes cache.rd n
    let moved := s.dma.transferred + BitVec.ofNat 32 n
    let finished := rr.remaining = 0 ∧ cache.avail - n = 0
    exec .tickDma s = .next { s with
      draws := if refill then s.draws + 1 else s.draws
      hostMem := memWriteBytes s.hostMem s.dma.cursor bytes
      dma.cursor := s.dma.cursor + BitVec.ofNat 32 n
      dma.transferred := moved
      dma.start := decide (moved ≠ s.dma.length)
      irq.dmaComplete := s.irq.dmaComplete || decide (moved = s.dma.length)
      irq.commandComplete := s.irq.commandComplete || decide finished
      drive.rr := rr
      drive.cache := { bytes := cache.bytes, rd := cache.rd + n, avail := cache.avail - n }
      drive.state := if finished then .waitCommand else .readSectorDma
      drive.status.busy := if finished then false else s.drive.status.busy
      drive.status.ready := if finished then true else s.drive.status.ready
      drive.ireasonCod := if finished then true else s.drive.ireasonCod
      drive.dmaScheduled := decide (moved ≠ s.dma.length ∧ ¬finished)
      events := s.events ++ (if n = 0 then [] else [.hostMemWrite s.dma.cursor bytes]) ++
        (if moved = s.dma.length then [.raise .dmaComplete] else []) ++
        (if finished then [.raise .commandComplete] else []) }

/-- The audio tick of a player that is not playing emits `SECTOR_AUDIO` zero bytes and changes no state (R282, which
writes the document's number, 2352). -/
def Obligations.AudioSilence : Prop :=
  ∀ s : State, s.drive.cdda.status ≠ .playing →
    exec .tickAudio s = .next { s with events := s.events ++ [.audioSector (List.replicate s.cfg.sectorAudio 0)] }

/-- The audio tick of a player that is playing (R280): the sector at the current position goes out, the position moves
on, and at the end the play terminates or wraps (R281). How the backend answers is the model's choice (log entries 8,
9). -/
def Obligations.AudioPlays : Prop :=
  ∀ s : State, s.drive.cdda.status = .playing →
    let next := s.drive.cdda.currentFad + 1
    let t : State := { s with
      draws := s.draws + 1
      events := s.events ++ [.audioSector (mediaSectors s s.drive.cdda.currentFad 1 s.cfg.sectorAudio)] }
    exec .tickAudio s =
      (if next.toNat < s.drive.cdda.endFad.toNat then .next { t with drive.cdda.currentFad := next }
       else if s.drive.cdda.repeatCount = 0 then .next { t with
         drive.cdda.currentFad := next
         drive.cdda.status := .terminated
         drive.sectorNumber := s.drive.sectorNumber.extractLsb' 4 4 ++ s.cfg.discStatusPaused }
       else .next { t with
         drive.cdda.currentFad := s.drive.cdda.startFad
         drive.cdda.repeatCount :=
           if s.drive.cdda.repeatCount = s.cfg.repeatInfinite then s.drive.cdda.repeatCount
           else s.drive.cdda.repeatCount - 1 })

/-- `EndReached()` (R281): without repeat the play terminates and the disc status says paused; else the count goes down,
unless it is the infinite one, and the position wraps. -/
def Obligations.EndReached : Prop :=
  ∀ s : State,
    audioEndReached s =
      if s.drive.cdda.repeatCount = 0 then { s with
        drive.cdda.status := .terminated
        drive.sectorNumber := s.drive.sectorNumber.extractLsb' 4 4 ++ s.cfg.discStatusPaused }
      else { s with
        drive.cdda.repeatCount :=
          if s.drive.cdda.repeatCount ≠ s.cfg.repeatInfinite then s.drive.cdda.repeatCount - 1
          else s.drive.cdda.repeatCount
        drive.cdda.currentFad := s.drive.cdda.startFad }

/-- The swap-done tick (R344): nothing unless a swap is pending (log entry 3); else the pending bit cleared, the disc
type read again, both nibbles of Sector Number set from it, and the unit attention. No interrupt. -/
def Obligations.SwapDone : Prop :=
  ∀ s : State,
    (s.drive.discSwapPending = false → exec .tickSwap s = .next s) ∧
    (s.drive.discSwapPending = true → exec .tickSwap s = .next { s with
      drive.discSwapPending := false
      drive.discType := s.media.discType
      drive.sectorNumber := discFormatCode s.cfg s.media.discType ++
        (match s.media.discType with
          | .noDisc => s.cfg.discStatusNodisc
          | .trayOpen => s.cfg.discStatusOpen
          | _ => s.cfg.discStatusStandby)
      drive.sense := if s.cfg.discChangeSetsUnitAttention then ⟨s.cfg.skUnitAttention, s.cfg.ascMediumChanged, 0⟩ else s.drive.sense })

/-- Hard reset (R340, R38): every field of the device at its reset value, whatever it was; the collaborators are not
changed and no event is put out. R38 gives `cache.bytes` no value: its zeros, and that both buffers are listed up to the
highest byte stored, are the model's choices (log entry 13). -/
def Obligations.HardResetResult : Prop :=
  ∀ s : State, exec .eventHardReset s = .next { s with drive := {
    state := .waitCommand
    status := { busy := false, ready := true, drq := false, check := false, deviceFault := false }
    error := { ili := false, eom := false, abort := false, mcr := false }
    ireasonCod := false
    features := 0
    sectorCount := 0
    sectorNumber := discFormatCode s.cfg s.media.discType ++
      (match s.media.discType with
        | .noDisc => s.cfg.discStatusNodisc
        | .trayOpen => s.cfg.discStatusOpen
        | _ => s.cfg.discStatusStandby)
    byteCount := 0
    driveSelect := 0
    ataCommand := 0
    sense := ⟨s.cfg.skNoSense, 0, 0⟩
    packet := { bytes := List.replicate s.cfg.packetBytes 0, index := 0 }
    pio := { data := [], index := 0, size := 0, nextState := .pioEnd }
    rr := { startSector := 0, remaining := 0, sectorSize := .data }
    cache := { bytes := [], rd := 0, avail := 0 }
    cdda := { status := .noInfo, currentFad := 0, startFad := 0, endFad := 0, repeatCount := 0 }
    discType := s.media.discType
    modeBlock := s.cfg.modeBlockReset
    setModeOffset := 0
    discSwapPending := false
    dmaScheduled := false } }

/-- The disc-change events (R342, R343): each mounts the backend and resets the device fully (`resetDrive`, which
`HardResetResult` writes out); a tray event then sets the unit attention if the configuration has it, a swap sets the
pending bit and the disc status `busy`. That the event carries the backend is the model's (log entry 18). -/
def Obligations.DiscEvents : Prop :=
  ∀ (s : State) (m : Media),
    let r : State := { s with media := m, drive := resetDrive s.cfg m.discType }
    exec (.eventTrayOpen m) s = .next { r with
      drive.sense := if s.cfg.discChangeSetsUnitAttention then ⟨s.cfg.skUnitAttention, s.cfg.ascMediumChanged, 0⟩ else ⟨s.cfg.skNoSense, 0, 0⟩ } ∧
    exec (.eventTrayClose m) s = exec (.eventTrayOpen m) s ∧
    exec (.eventSwapBegin m) s = .next { r with
      drive.discSwapPending := true
      drive.sectorNumber := discFormatCode s.cfg m.discType ++ s.cfg.discStatusBusy }

/-! ### The step -/

/-- A step takes the first input and runs the operation it decodes to (R2, R62); with no input only the events of the
step before are gone (R40); a write of the DMA collaborator's registers stores them (R33); an access that no port takes
is ignored and a read of it answers 0 (R54). The queue of inputs, the idle step and the events field are the model's own
(log entries 1, 2, 4, 5, 14). -/
def Obligations.StepRunsDecoded : Prop :=
  ∀ (s : State) (x : Input) (rest : List Input),
    (∀ i, s.pending = x :: rest → decode s.cfg (.bus x) = .ok i →
      step s = exec i { s with pending := rest, events := [] }) ∧
    (s.pending = [] → step s = .next { s with events := [] }) ∧
    (∀ a l d, s.pending = .dmaSet a l d :: rest → step s = .next { s with
      pending := rest, events := [], dma.addr := a, dma.length := l, dma.direction := d }) ∧
    (∀ w a, s.pending = .read w a :: rest → lookupPort s.cfg a .read = none → w ≠ .w32 →
      step s = .next { s with pending := rest, events := [.ignored, .readValue w 0] }) ∧
    (∀ w a v, s.pending = .write w a v :: rest → lookupPort s.cfg a .write = none → w ≠ .w32 →
      step s = .next { s with pending := rest, events := [.ignored] })

/-- The machine after reset meets the invariant. The values the spec gives no reset for are the model's (log entries 6,
7, 9 to 13). -/
def Obligations.ResetMeetsInv : Prop := State.reset.Inv

/-- Every step keeps the invariant: from any state that meets it, whatever the inputs, a step that answers a next state
answers one that meets it: a stable state with that state's status bits (R136, R137, R13), sound buffers (R23 to R25,
R27), a mode block that SET_MODE reaches only in its first `MODE_WRITABLE_BYTES` bytes (R30, R131), host memory in
canonical form (the model's representation, log entries 12, 13), a configuration that meets R5 and the bounds of log
entry 21. -/
def Obligations.StepKeepsInv : Prop :=
  ∀ s t : State, s.Inv → step s = .next t → t.Inv

/-- From a state that meets the invariant the only fault is a Command write outside `WaitCommand`, past the width check
and the gate (R305, R162, R133): no transition of the device's own is unmapped, and no continuation is a PIO state. That
a run ends at the fault is the model's reading (log entry 19). -/
def Obligations.FaultOnlyByCommandWrite : Prop :=
  ∀ (s : State) (f : Fault), s.Inv → step s = .fault f →
    ∃ w a v rest, s.pending = .write w a v :: rest ∧ lookupPort s.cfg a .write = some .command ∧ w ≠ .w32 ∧
      s.drive.driveSelect.getLsbD 4 = false ∧ s.drive.state ≠ .waitCommand

/-- The only refusal is an access of a width no port takes (R53, R306): 32 bits, or 8 bits at Data. -/
def Obligations.RefusalOnlyByWidth : Prop :=
  ∀ (s : State) (q : Refusal), step s = .refused q →
    q = .badAccessWidth ∧
    ∃ w a rest, ((s.pending = .read w a :: rest ∧ (w = .w32 ∨ w = .w8 ∧ lookupPort s.cfg a .read = some .data)) ∨
      ∃ v, s.pending = .write w a v :: rest ∧ (w = .w32 ∨ w = .w8 ∧ lookupPort s.cfg a .write = some .data))

/-- Both lines are cancelled by every Status read that passes the gate, and no other step cancels one (R312);
`DmaComplete` is raised only by a DMA tick that brings the count of transferred bytes to the burst's length, a DMA abort
does not raise it (R311). -/
def Obligations.InterruptLines : Prop :=
  ∀ (s t : State), step s = .next t →
    ((∃ w a rest, s.pending = .read w a :: rest ∧ lookupPort s.cfg a .read = some .status ∧
        s.drive.driveSelect.getLsbD 4 = false) →
      Event.cancel .commandComplete ∈ t.events ∧ Event.cancel .dmaComplete ∈ t.events) ∧
    (∀ l, Event.cancel l ∈ t.events →
      ∃ w a rest, s.pending = .read w a :: rest ∧ lookupPort s.cfg a .read = some .status ∧
        s.drive.driveSelect.getLsbD 4 = false) ∧
    (Event.raise .dmaComplete ∈ t.events →
      (∃ rest, s.pending = .tickDma :: rest) ∧ s.drive.dmaScheduled = true ∧ s.dma.start = true ∧
      s.dma.enable = true ∧ t.dma.transferred = t.dma.length ∧ t.dma.start = false)

/-- What no step but one changes. Host memory: only a DMA tick that runs, and only the bytes it stores from its cursor
on (R60, R254). The configuration: none (R5). The backend: only an environment event, which mounts its own (R342, R343).
The disc type: only a full reset and the swap-done tick of a pending swap, from the backend (R29, R344). The Error flags
`ili`, `eom` and `mcr`: only a full reset and a SOFT_RESET, which clear all three (R183, R315). The mode block: only a
full reset and the Data write that brings the last word of a SET_MODE, and beyond its first `MODE_WRITABLE_BYTES` bytes
only a full reset, which puts back `MODE_BLOCK_RESET` (R204, R340). The addresses wrap at 32 bits, the bytes of a burst
rewritten below its count are none, and the events carry the backend: the model's choices (log entries 12, 14, 18). -/
def Obligations.ChangedOnlyBy : Prop :=
  ∀ (s t : State), s.Inv → step s = .next t →
    let fullReset : Prop := ∃ x rest, s.pending = x :: rest ∧ fullResetInput x = true
    let gateOpen : Prop := s.drive.driveSelect.getLsbD 4 = false
    let softReset : Prop := ∃ w a v rest, s.pending = .write w a v :: rest ∧ w ≠ .w32 ∧ gateOpen ∧
      lookupPort s.cfg a .write = some .command ∧ v.setWidth 8 = s.cfg.opAtaSoftReset ∧
      s.drive.state = .waitCommand ∧ s.drive.discSwapPending = false
    let lastSetModeWord : Prop := ∃ a v rest, s.pending = .write .w16 a v :: rest ∧ gateOpen ∧
      lookupPort s.cfg a .write = some .data ∧ s.drive.state = .pioGetData ∧ s.drive.pio.index + 1 = s.drive.pio.size
    (∀ a, memRead t.hostMem a ≠ memRead s.hostMem a →
      (∃ rest, s.pending = .tickDma :: rest) ∧ s.drive.dmaScheduled = true ∧ s.dma.start = true ∧ s.dma.enable = true ∧
      s.drive.state = .readSectorDma ∧ s.dma.direction = s.cfg.dmaToHost ∧
      ∃ k, k < dmaCount (dmaRefill s) ∧ a = storeAddr s.dma.cursor k) ∧
    t.cfg = s.cfg ∧
    (t.media ≠ s.media → ∃ rest, s.pending = .trayOpen t.media :: rest ∨ s.pending = .trayClose t.media :: rest ∨
      s.pending = .swapBegin t.media :: rest) ∧
    (t.drive.discType ≠ s.drive.discType → t.drive.discType = t.media.discType ∧
      (fullReset ∨ (∃ rest, s.pending = .tickSwap :: rest) ∧ s.drive.discSwapPending = true)) ∧
    (t.drive.error.ili ≠ s.drive.error.ili ∨ t.drive.error.eom ≠ s.drive.error.eom ∨
        t.drive.error.mcr ≠ s.drive.error.mcr →
      t.drive.error.ili = false ∧ t.drive.error.eom = false ∧ t.drive.error.mcr = false ∧ (fullReset ∨ softReset)) ∧
    (t.drive.modeBlock ≠ s.drive.modeBlock → fullReset ∨ lastSetModeWord) ∧
    (t.drive.modeBlock.drop s.cfg.modeWritableBytes ≠ s.drive.modeBlock.drop s.cfg.modeWritableBytes →
      fullReset ∧ t.drive.modeBlock = s.cfg.modeBlockReset)

/-! ### Runs of one operation -/

/-- A store of a byte sequence (R60) puts byte `i` at address `addr + i`, for every byte, and leaves every other address
alone; the canonical form is kept. The sequence is no longer than the address space; that addresses wrap is the model's
choice (log entry 12). -/
def Obligations.HostMemStores : Prop :=
  ∀ (m : List Host.Cell) (addr : Addr) (b : List Byte), Memory.wf m → b.length ≤ 4294967296 →
    Memory.wf (memWriteBytes m addr b) ∧
    (∀ i, i < b.length → memRead (memWriteBytes m addr b) (addr + BitVec.ofNat 32 i).toNat = b[i]?) ∧
    (∀ a, (∀ i, i < b.length → a ≠ (addr + BitVec.ofNat 32 i).toNat) →
      memRead (memWriteBytes m addr b) a = memRead m a)

/-- Reading the sense twice in a row gives no sense the second time (R205): whatever the sense was, after a REQ_ERROR a
second one stages the record of no sense and leaves the sense as it is. The cut of R205's ten bytes at
`ERROR_RECORD_BYTES`, above which they stay ten, is the model's choice (log entry 21). -/
def Obligations.ReqErrorTwice : Prop :=
  ∀ (s t : State) (n k : Byte), s.drive.state = .processPacketCommand → exec (.reqError n) s = .next t →
    let record := ([0xF0, 0, s.cfg.skNoSense.setWidth 8, 0, 0, 0, 0, 0, 0, 0].take s.cfg.errorRecordBytes).take k.toNat
    ∃ u, exec (.reqError k) { t with drive.state := .processPacketCommand } = .next u ∧
      u.drive.sense = t.drive.sense ∧ t.drive.sense = ⟨s.cfg.skNoSense, 0, 0⟩ ∧
      u.drive.pio.size = record.length / 2 ∧ u.drive.pio.data.take record.length = record

/-- A PIO reply (R217, R151): from any point of a window that ends its command, as many reads as words are left deliver
those words in order, one each, with no other event before the last; the last one ends the command with one
`CommandComplete`, after which reads are ignored. The mark `ignored` is the model's own (log entry 4). -/
def Obligations.PioDrain : Prop :=
  ∀ s : State, s.drive.driveSelect.getLsbD 4 = false → s.drive.state = .pioSendData →
    s.drive.pio.nextState = .pioEnd → s.drive.pio.index < s.drive.pio.size →
    let n := s.drive.pio.size - s.drive.pio.index
    let words := (List.range n).map fun j =>
      (s.drive.pio.data.getD (2 * (s.drive.pio.index + j) + 1) 0 ++ s.drive.pio.data.getD (2 * (s.drive.pio.index + j)) 0
        : BitVec 16)
    (∀ k, k < n → repeatExec (.r16Data .w16) k s = .next { s with
      drive.pio.index := s.drive.pio.index + k
      drive.byteCount := s.drive.byteCount - BitVec.ofNat 16 (2 * k)
      events := s.events ++ (words.take k).map (.readValue .w16) }) ∧
    ∃ t, repeatExec (.r16Data .w16) n s = .next t ∧
      readValues t.events = readValues s.events ++ words ∧
      t.events.count (.raise .commandComplete) = s.events.count (.raise .commandComplete) + 1 ∧
      t.drive.state = .waitCommand ∧ t.drive.status.drq = false ∧
      exec (.r16Data .w16) t = .next { t with events := t.events ++ [.ignored, .readValue .w16 0] }

/-- A play from `startFad` with a repeat count below the infinite one (R283: 0 to 14): undisturbed ticks deliver one
pass more than the count of the sectors from `startFad` to `endFad - 1`, in order; then the play is over, and only then.
With the infinite repeat the play goes on for ever and its count stays. How the backend answers and how draws are
counted are the model's choices (log entries 8, 9). -/
def Obligations.AudioPasses : Prop :=
  (∀ (s : State) (k : Nat), s.drive.cdda.status = .playing → s.drive.cdda.repeatCount = s.cfg.repeatInfinite →
    s.cfg.repeatInfinite ≠ 0 →
    ∃ t, repeatExec .tickAudio k s = .next t ∧ t.drive.cdda.status = .playing ∧
      t.drive.cdda.repeatCount = s.cfg.repeatInfinite) ∧
  ∀ (s : State) (passes : Nat), s.drive.cdda.status = .playing → s.drive.cdda.currentFad = s.drive.cdda.startFad →
    s.drive.cdda.startFad.toNat < s.drive.cdda.endFad.toNat →
    s.drive.cdda.repeatCount.toNat < s.cfg.repeatInfinite.toNat → passes = s.drive.cdda.repeatCount.toNat + 1 →
    let len := s.drive.cdda.endFad.toNat - s.drive.cdda.startFad.toNat
    let sectors (k : Nat) := (List.range k).map fun j =>
      mediaSectors { s with draws := s.draws + j } (s.drive.cdda.startFad + BitVec.ofNat 32 (j % len)) 1
        s.cfg.sectorAudio
    (∀ k, k < passes * len → ∃ t, repeatExec .tickAudio k s = .next t ∧ t.drive.cdda.status = .playing ∧
      t.drive.cdda.repeatCount.toNat + k / len = s.drive.cdda.repeatCount.toNat ∧
      audioSectors t.events = audioSectors s.events ++ sectors k) ∧
    ∃ t, repeatExec .tickAudio (passes * len) s = .next t ∧ t.drive.cdda.status = .terminated ∧
      t.drive.cdda.currentFad = s.drive.cdda.endFad ∧ t.drive.cdda.repeatCount = 0 ∧
      t.drive.sectorNumber.extractLsb' 0 4 = s.cfg.discStatusPaused ∧
      audioSectors t.events = audioSectors s.events ++ sectors (passes * len)

/-- A DMA read (R256): once started with a burst at least as long as what is left to deliver (nothing, after a read of
no sector), and left to itself, the tick delivers every byte left, in order, in chunks no larger than the configured
size, each to the address where the one before it ended, the first at the cursor; host memory holds them and is
otherwise as it was. The command completes in the tick that empties the cache with no sector left, with one
`CommandComplete` after the last byte, and `DmaComplete` comes once if the burst is exactly that long and never if it is
longer. How the backend answers, how draws are counted and that addresses wrap are the model's choices (log entries 8,
9, 12). -/
def Obligations.DmaDelivers : Prop :=
  ∀ s : State, s.Inv → s.drive.state = .readSectorDma → s.drive.dmaScheduled = true → s.dma.start = true →
    s.dma.enable = true → s.dma.direction = s.cfg.dmaToHost → s.dma.transferred.toNat ≤ s.dma.length.toNat →
    outstanding s ≤ s.dma.length.toNat - s.dma.transferred.toNat →
    let due := bufSlice s.drive.cache.bytes s.drive.cache.rd s.drive.cache.avail ++
      batches s (sectorBytes s.cfg s.drive.rr.sectorSize) s.drive.rr.remaining.toNat s.draws s.drive.rr.startSector
        s.drive.rr.remaining.toNat
    ∃ k t es, repeatExec .tickDma k s = .next t ∧ t.events = s.events ++ es ∧
      storedBytes es = due ∧ due.length = outstanding s ∧
      (∀ a b, Event.hostMemWrite a b ∈ es → b.length ≤ s.cfg.dmaChunkBytes) ∧
      storesFrom s.dma.cursor es = true ∧ t.hostMem = memWriteBytes s.hostMem s.dma.cursor due ∧
      t.dma.cursor = s.dma.cursor + BitVec.ofNat 32 (outstanding s) ∧
      es.count (.raise .commandComplete) = 1 ∧ es.getLast? = some (.raise .commandComplete) ∧
      es.count (.raise .dmaComplete) =
        (if outstanding s = s.dma.length.toNat - s.dma.transferred.toNat then 1 else 0) ∧
      t.drive.state = .waitCommand ∧ t.drive.status.busy = false ∧ t.drive.dmaScheduled = false ∧ outstanding t = 0

end
end

