-- ==== Sys2Proof/Laws/State.lean ====
section
/-! SUPPORT. The small lemmas of the state updates: what each named update leaves in each field. -/

namespace Sys2Proof.Machine

/-! ### `emit` -/

@[simp] theorem emit_drive (s : State) (e : Event) : (s.emit e).drive = s.drive := rfl
@[simp] theorem emit_dma (s : State) (e : Event) : (s.emit e).dma = s.dma := rfl
@[simp] theorem emit_irq (s : State) (e : Event) : (s.emit e).irq = s.irq := rfl
@[simp] theorem emit_hostMem (s : State) (e : Event) : (s.emit e).hostMem = s.hostMem := rfl
@[simp] theorem emit_media (s : State) (e : Event) : (s.emit e).media = s.media := rfl
@[simp] theorem emit_cfg (s : State) (e : Event) : (s.emit e).cfg = s.cfg := rfl
@[simp] theorem emit_pending (s : State) (e : Event) : (s.emit e).pending = s.pending := rfl
@[simp] theorem emit_events (s : State) (e : Event) : (s.emit e).events = s.events ++ [e] := rfl
@[simp] theorem emit_draws (s : State) (e : Event) : (s.emit e).draws = s.draws := rfl

/-! ### `raiseLine` and `cancelLine` -/

@[simp] theorem raiseLine_drive (l : Line) (s : State) : (raiseLine l s).drive = s.drive := rfl
@[simp] theorem raiseLine_dma (l : Line) (s : State) : (raiseLine l s).dma = s.dma := rfl
@[simp] theorem raiseLine_irq (l : Line) (s : State) : (raiseLine l s).irq = s.irq.set l true := rfl
@[simp] theorem raiseLine_hostMem (l : Line) (s : State) : (raiseLine l s).hostMem = s.hostMem := rfl
@[simp] theorem raiseLine_media (l : Line) (s : State) : (raiseLine l s).media = s.media := rfl
@[simp] theorem raiseLine_cfg (l : Line) (s : State) : (raiseLine l s).cfg = s.cfg := rfl
@[simp] theorem raiseLine_pending (l : Line) (s : State) : (raiseLine l s).pending = s.pending := rfl
@[simp] theorem raiseLine_events (l : Line) (s : State) : (raiseLine l s).events = s.events ++ [.raise l] := rfl
@[simp] theorem raiseLine_draws (l : Line) (s : State) : (raiseLine l s).draws = s.draws := rfl

@[simp] theorem cancelLine_drive (l : Line) (s : State) : (cancelLine l s).drive = s.drive := rfl
@[simp] theorem cancelLine_dma (l : Line) (s : State) : (cancelLine l s).dma = s.dma := rfl
@[simp] theorem cancelLine_irq (l : Line) (s : State) : (cancelLine l s).irq = s.irq.set l false := rfl
@[simp] theorem cancelLine_hostMem (l : Line) (s : State) : (cancelLine l s).hostMem = s.hostMem := rfl
@[simp] theorem cancelLine_media (l : Line) (s : State) : (cancelLine l s).media = s.media := rfl
@[simp] theorem cancelLine_cfg (l : Line) (s : State) : (cancelLine l s).cfg = s.cfg := rfl
@[simp] theorem cancelLine_pending (l : Line) (s : State) : (cancelLine l s).pending = s.pending := rfl
@[simp] theorem cancelLine_events (l : Line) (s : State) : (cancelLine l s).events = s.events ++ [.cancel l] := rfl
@[simp] theorem cancelLine_draws (l : Line) (s : State) : (cancelLine l s).draws = s.draws := rfl

@[simp] theorem raiseLineIf_drive (b : Bool) (l : Line) (s : State) : (raiseLineIf b l s).drive = s.drive := rfl
@[simp] theorem raiseLineIf_dma (b : Bool) (l : Line) (s : State) : (raiseLineIf b l s).dma = s.dma := rfl
@[simp] theorem raiseLineIf_hostMem (b : Bool) (l : Line) (s : State) : (raiseLineIf b l s).hostMem = s.hostMem := rfl
@[simp] theorem raiseLineIf_media (b : Bool) (l : Line) (s : State) : (raiseLineIf b l s).media = s.media := rfl
@[simp] theorem raiseLineIf_cfg (b : Bool) (l : Line) (s : State) : (raiseLineIf b l s).cfg = s.cfg := rfl
@[simp] theorem raiseLineIf_pending (b : Bool) (l : Line) (s : State) : (raiseLineIf b l s).pending = s.pending := rfl
@[simp] theorem raiseLineIf_draws (b : Bool) (l : Line) (s : State) : (raiseLineIf b l s).draws = s.draws := rfl

@[simp] theorem irqSet_commandComplete (p : IrqPending) (v : Bool) :
    p.set .commandComplete v = { p with commandComplete := v } := rfl
@[simp] theorem irqSet_dmaComplete (p : IrqPending) (v : Bool) : p.set .dmaComplete v = { p with dmaComplete := v } := rfl

/-! ### `nextDraw` -/

@[simp] theorem nextDraw_drive (s : State) : s.nextDraw.drive = s.drive := rfl
@[simp] theorem nextDraw_dma (s : State) : s.nextDraw.dma = s.dma := rfl
@[simp] theorem nextDraw_irq (s : State) : s.nextDraw.irq = s.irq := rfl
@[simp] theorem nextDraw_hostMem (s : State) : s.nextDraw.hostMem = s.hostMem := rfl
@[simp] theorem nextDraw_media (s : State) : s.nextDraw.media = s.media := rfl
@[simp] theorem nextDraw_cfg (s : State) : s.nextDraw.cfg = s.cfg := rfl
@[simp] theorem nextDraw_pending (s : State) : s.nextDraw.pending = s.pending := rfl
@[simp] theorem nextDraw_events (s : State) : s.nextDraw.events = s.events := rfl
@[simp] theorem nextDraw_draws (s : State) : s.nextDraw.draws = s.draws + 1 := rfl

/-! ### `takeInput` and `idleStep` -/

@[simp] theorem takeInput_drive (r : List Input) (s : State) : (takeInput r s).drive = s.drive := rfl
@[simp] theorem takeInput_dma (r : List Input) (s : State) : (takeInput r s).dma = s.dma := rfl
@[simp] theorem takeInput_irq (r : List Input) (s : State) : (takeInput r s).irq = s.irq := rfl
@[simp] theorem takeInput_hostMem (r : List Input) (s : State) : (takeInput r s).hostMem = s.hostMem := rfl
@[simp] theorem takeInput_media (r : List Input) (s : State) : (takeInput r s).media = s.media := rfl
@[simp] theorem takeInput_cfg (r : List Input) (s : State) : (takeInput r s).cfg = s.cfg := rfl
@[simp] theorem takeInput_pending (r : List Input) (s : State) : (takeInput r s).pending = r := rfl
@[simp] theorem takeInput_events (r : List Input) (s : State) : (takeInput r s).events = [] := rfl
@[simp] theorem takeInput_draws (r : List Input) (s : State) : (takeInput r s).draws = s.draws := rfl

/-! ### The persisted form (R39) -/

/-- Restoring what was saved changes nothing. -/
theorem restore_save (s : State) : restoreState (saveState s) s = s := rfl

/-- A restored device is the saved one. -/
@[simp] theorem save_restore (d : DriveState) (s : State) : saveState (restoreState d s) = d := rfl

/-! ### Outcomes -/

@[simp] theorem andThen_next (s : State) (k : State → Res) : andThen (.next s) k = k s := rfl
@[simp] theorem andThen_fault (f : Fault) (k : State → Res) : andThen (.fault f) k = .fault f := rfl
@[simp] theorem andThen_refused (q : Refusal) (k : State → Res) : andThen (.refused q) k = .refused q := rfl

/-- If a sequence answers a next state, its first part did and the second part did from there. -/
theorem andThen_eq_next {r : Res} {k : State → Res} {t : State} (h : andThen r k = .next t) :
    ∃ s, r = .next s ∧ k s = .next t := by
  cases r with
  | next s => exact ⟨s, rfl, h⟩
  | fault f => cases h
  | refused q => cases h

end Sys2Proof.Machine
end

