-- ==== Sys2Proof/Laws/Buffers.lean ====
section
/-! SUPPORT. What the buffer operations of Operands.lean do, byte by byte (R55, R131, R134). -/

namespace Sys2Proof.Machine

@[simp] theorem bufSlice_length (b : List Byte) (a n : Nat) : (bufSlice b a n).length = n := by simp [bufSlice]

/-- A part of a buffer, byte by byte. -/
theorem bufSlice_getElem? (b : List Byte) (a n i : Nat) :
    (bufSlice b a n)[i]? = if i < n then some (b.getD (a + i) 0) else none := by
  simp only [bufSlice, List.getElem?_append, List.getElem?_take, List.getElem?_drop, List.getElem?_replicate,
    List.length_take, List.length_drop, List.getD_eq_getElem?_getD]
  by_cases h1 : i < n
  · by_cases h2 : a + i < b.length
    · rw [if_pos (by omega), if_pos h1, if_pos h1, List.getElem?_eq_getElem h2]; simp
    · rw [if_neg (by omega), if_pos (by omega), if_pos h1, List.getElem?_eq_none (by omega)]; simp
  · rw [if_neg (by omega), if_neg (by omega), if_neg h1]

/-- A part of a buffer cut in two. -/
theorem bufSlice_add (b : List Byte) (a n m : Nat) :
    bufSlice b a (n + m) = bufSlice b a n ++ bufSlice b (a + n) m := by
  apply List.ext_getElem?
  intro i
  rw [List.getElem?_append, bufSlice_getElem?, bufSlice_getElem?, bufSlice_getElem?, bufSlice_length]
  by_cases h1 : i < n
  · simp [h1, show i < n + m by omega]
  · by_cases h2 : i < n + m
    · simp [h1, h2, show i - n < m by omega, show a + n + (i - n) = a + i by omega]
    · simp [h1, h2, show ¬ i - n < m by omega]

/-- Storing one byte changes that byte and no other. -/
theorem bufSet_getD (b : List Byte) (i : Nat) (v : Byte) (j : Nat) :
    (bufSet b i v).getD j 0 = if j = i then v else b.getD j 0 := by
  unfold bufSet
  split
  · by_cases h : j = i
    · subst h; simp [*]
    · simp [h, Ne.symm h]
  · rename_i h
    by_cases h2 : j = i
    · subst h2; simp [List.getElem?_append]; rw [if_neg (by omega)]; simp
    · simp only [h2, if_false, List.getD_eq_getElem?_getD, List.getElem?_append, List.getElem?_replicate,
        List.length_append, List.length_replicate]
      by_cases h3 : j < b.length
      · simp [h3, show j < b.length + (i - b.length) by omega]
      · by_cases h4 : j < i
        · simp [h3, show j < b.length + (i - b.length) by omega, show j - b.length < i - b.length by omega]
        · rw [if_neg (by omega), List.getElem?_eq_none (by simp; omega), List.getElem?_eq_none (l := b) (by omega)]

/-- Storing one byte inside a buffer keeps its length. -/
theorem bufSet_length {b : List Byte} {i : Nat} (h : i < b.length) (v : Byte) : (bufSet b i v).length = b.length := by
  simp [bufSet, h]

/-- Storing a word changes its two bytes and no other (R55). -/
theorem setWord_getD (b : List Byte) (k : Nat) (v : Half) (j : Nat) : (setWord b k v).getD j 0 =
    if j = 2 * k then v.extractLsb' 0 8 else if j = 2 * k + 1 then v.extractLsb' 8 8 else b.getD j 0 := by
  unfold setWord
  rw [bufSet_getD, bufSet_getD]
  by_cases h : j = 2 * k + 1
  · simp [h]
  · simp [h]

/-- Storing a word inside a buffer keeps its length. -/
theorem setWord_length {b : List Byte} {k : Nat} (h : 2 * k + 1 < b.length) (v : Half) :
    (setWord b k v).length = b.length := by
  rw [setWord, bufSet_length (by rw [bufSet_length (by omega)]; exact h), bufSet_length (by omega)]

/-- The low byte of what a Data write stores. -/
theorem dataWord_low (v : BitVec 32) : (v.setWidth 16 : Half).extractLsb' 0 8 = v.setWidth 8 := by
  ext i hi; simp; omega

/-- The high byte of what a Data write stores. -/
theorem dataWord_high (v : BitVec 32) : (v.setWidth 16 : Half).extractLsb' 8 8 = (v >>> 8).setWidth 8 := by
  ext i hi; simp; omega

/-- Replacing bytes inside a block keeps its length. -/
theorem blockReplace_length {block new : List Byte} {off m : Nat} (hn : new.length = m) (h : off + m ≤ block.length) :
    (blockReplace block new off m).length = block.length := by
  simp [blockReplace, hn]; omega

/-- Replacing bytes inside a block leaves the bytes before `off` and from `off + m` on. -/
theorem blockReplace_drop {block new : List Byte} {off m k : Nat} (hn : new.length = m) (h : off + m ≤ block.length)
    (hk : off + m ≤ k) : (blockReplace block new off m).drop k = block.drop k := by
  have ht : (block.take off ++ new).length = off + m := by simp [hn]; omega
  rw [blockReplace, List.drop_append, ht, List.drop_eq_nil_of_le (by omega), List.nil_append, List.drop_drop]
  congr 1; omega

end Sys2Proof.Machine
end

