-- ==== Sys2Proof/Laws/Ops.lean ====
section
/-! SUPPORT. One lemma for each shared operation: what it answers, so that no later proof unfolds it. -/

namespace Sys2Proof.Machine

/-! ### Transitions -/

/-- A transition that R132 lists. -/
theorem moveTo_next {t : Proto} {s : State} (h : mapped s.drive.state t = true) :
    moveTo t s = .next { s with drive.state := t } := by simp [moveTo, h]

/-- A transition that R132 does not list. -/
theorem moveTo_fault {t : Proto} {s : State} (h : mapped s.drive.state t = false) :
    moveTo t s = .fault .unmappedTransition := by simp [moveTo, h]

/-- If a transition answers a next state, R132 lists it and only the protocol state has changed. -/
theorem moveTo_eq_next {t : Proto} {s u : State} (h : moveTo t s = .next u) :
    mapped s.drive.state t = true ∧ u = { s with drive.state := t } := by
  unfold moveTo at h
  split at h
  · rename_i hm
    exact ⟨hm, by injection h with h; exact h.symm⟩
  · cases h

/-- `enter(WaitCommand)` (R121). -/
theorem enterWaitCommand_next {s : State} (h : mapped s.drive.state .waitCommand = true) :
    enterWaitCommand s = .next
      { s with drive.state := .waitCommand, drive.status.ready := true, drive.status.busy := false } := by
  simp [enterWaitCommand, moveTo_next h]

/-- `enter(ProcessPacketDone)` (R130, R121). -/
theorem enterProcessPacketDone_next {s : State} (h : mapped s.drive.state .processPacketDone = true) :
    enterProcessPacketDone s = .next (packetDone s) := by
  simp only [enterProcessPacketDone, moveTo_next h, andThen_next]
  rw [enterWaitCommand_next (by rfl)]
  rfl

/-- `enter(PioEnd)` (R129, R130, R121). -/
theorem enterPioEnd_next {s : State} (h : mapped s.drive.state .pioEnd = true) :
    enterPioEnd s = .next (packetDone { s with drive.status.drq := false }) := by
  simp only [enterPioEnd, moveTo_next h, andThen_next]
  rw [enterProcessPacketDone_next (by rfl)]
  rfl

/-- `enter(WaitPacket)` (R123). -/
theorem enterWaitPacket_next {s : State} (h : mapped s.drive.state .waitPacket = true) :
    enterWaitPacket s = .next { s with
      drive.state := .waitPacket
      drive.packet := { bytes := List.replicate s.cfg.packetBytes 0, index := 0 }
      drive.ireasonCod := true
      drive.status.busy := false
      drive.status.drq := true } := by
  simp [enterWaitPacket, moveTo_next h]

/-- The entry of the two PIO data states (R125, R126). -/
theorem openPioWindow_next {p : Proto} {s : State} (h : mapped s.drive.state p = true) :
    openPioWindow p s = .next { s with
      drive.state := p
      drive.byteCount := BitVec.ofNat 16 (2 * s.drive.pio.size)
      drive.ireasonCod := false
      drive.status.drq := true
      drive.status.busy := false
      irq.commandComplete := s.irq.commandComplete || s.cfg.irqOnPioReady
      events := s.events ++ (if s.cfg.irqOnPioReady then [.raise .commandComplete] else []) } := by
  cases hi : s.cfg.irqOnPioReady <;> simp [openPioWindow, moveTo_next h, raiseLineIf, IrqPending.set, hi]

/-- `enter(ProcessSetMode)` (R131, R129, R130, R121). -/
theorem enterProcessSetMode_next {s : State} (h : mapped s.drive.state .processSetMode = true) :
    enterProcessSetMode s = .next (packetDone { s with
      drive.modeBlock := blockReplace s.drive.modeBlock (bufSlice s.drive.pio.data 0 (2 * s.drive.pio.size))
        s.drive.setModeOffset (2 * s.drive.pio.size)
      drive.status.drq := false }) := by
  simp only [enterProcessSetMode, moveTo_next h, andThen_next]
  rw [enterPioEnd_next (by rfl)]
  rfl

/-! ### Staging -/

/-- A reply that goes on to `next` in a window of one word or more (R134, R125). -/
theorem stageReply_window {b : List Byte} {len : Nat} {next : Proto} {s : State}
    (hs : mapped s.drive.state .pioSendData = true) (hl : len ≤ b.length) (h2 : 2 ≤ len) :
    stageReply b len next s = .next (windowOpen (b.take len) next s) := by
  have hne : len / 2 ≠ 0 := by omega
  have hlen : (b.take len).length = len := by simp [hl]
  simp only [stageReply, hne, if_false, enterPioSendData, windowOpen, hlen]
  rw [openPioWindow_next (by exact hs)]
  rfl

/-- A whole reply (R134): a window, or the end of the command. -/
theorem stageReply_next {b : List Byte} {len : Nat} {s : State} (hs : mapped s.drive.state .pioSendData = true)
    (he : mapped s.drive.state .pioEnd = true) (hl : len ≤ b.length) :
    stageReply b len .pioEnd s = .next (replied (b.take len) s) := by
  have hlen : (b.take len).length = len := by simp [hl]
  by_cases h2 : 2 ≤ len
  · rw [stageReply_window hs hl h2, replied, hlen, if_pos h2]
  · have h0 : len / 2 = 0 := by omega
    simp only [stageReply, h0, if_true, replied, hlen, h2, if_false]
    rw [enterPioEnd_next (by exact he)]
    rfl

/-- A record staged whole. -/
theorem stageRecord_next {r : List Byte} {s : State} (hs : mapped s.drive.state .pioSendData = true)
    (he : mapped s.drive.state .pioEnd = true) : stageReply r r.length .pioEnd s = .next (replied r s) := by
  rw [stageReply_next hs he (Nat.le_refl _), List.take_length]

/-- A receive of one word or more (R135, R126). -/
theorem stageReceive_window {len : Nat} {s : State} (hs : s.drive.state = .processPacketCommand) (h2 : 2 ≤ len) :
    stageReceive len s = .next { s with
      drive.state := .pioGetData
      drive.pio.index := 0
      drive.pio.size := len / 2
      drive.pio.nextState := .processSetMode
      drive.byteCount := BitVec.ofNat 16 (2 * (len / 2))
      drive.ireasonCod := false
      drive.status.drq := true
      drive.status.busy := false
      irq.commandComplete := s.irq.commandComplete || s.cfg.irqOnPioReady
      events := s.events ++ (if s.cfg.irqOnPioReady then [.raise .commandComplete] else []) } := by
  have hne : len / 2 ≠ 0 := by omega
  simp only [stageReceive, hne, if_false, enterPioGetData]
  rw [openPioWindow_next (by simp [hs, mapped])]

/-- A receive of no word (R135, R131): the mode block stays as it is. -/
theorem stageReceive_empty {len : Nat} {s : State} (hs : s.drive.state = .processPacketCommand) (h2 : len < 2) :
    stageReceive len s = .next (packetDone { s with
      drive.pio.index := 0
      drive.pio.size := 0
      drive.pio.nextState := .processSetMode
      drive.status.drq := false }) := by
  have h0 : len / 2 = 0 := by omega
  simp only [stageReceive, h0, if_true]
  rw [enterProcessSetMode_next (by simp [hs, mapped])]
  simp [blockReplace, bufSlice]

/-! ### Completions and errors -/

/-- `AtaComplete(a)` (R181). -/
theorem ataComplete_next {a : Bool} {s : State} (h : s.drive.state = .processAtaCommand) :
    ataComplete a s = .next (ataDone a (a || !ataHarmless s.cfg s.drive.sense.key) s) := by
  rw [ataComplete, enterWaitCommand_next (by simp [h, mapped])]
  rfl

/-- The command-level error of a packet command (R302). -/
theorem packetError_next {q : Sense} {a : Bool} {s : State} (h : s.drive.state = .processPacketCommand) :
    packetError q a s = .next (packetDone { s with
      drive.sense := q, drive.error.abort := a, drive.status.check := true }) := by
  rw [packetError, enterProcessPacketDone_next (by simp [h, mapped])]

/-! ### The backend's answers -/

/-- An answer has the length that is asked for (R35). -/
@[simp] theorem mediaBytes_length (m : Media) (draw base : Nat) (q : MediaQuery) (n : Nat) :
    (mediaBytes m draw base q n).length = n := by
  simp only [mediaBytes]
  split
  · split
    · simp; omega
    · simp
  · simp

@[simp] theorem mediaAnswer_length (s : State) (q : MediaQuery) (n : Nat) : (mediaAnswer s q n).length = n :=
  mediaBytes_length ..

/-- Sectors one after the other have the length of all of them (R35). -/
@[simp] theorem mediaSectors_length (s : State) (fad : Fad) (count size : Nat) :
    (mediaSectors s fad count size).length = count * size := by
  simp only [mediaSectors, List.length_flatMap, mediaBytes_length]
  simp

/-- An answer depends on the backend and the draw number alone. -/
theorem mediaSectors_congr {s t : State} (hm : s.media = t.media) (hd : s.draws = t.draws) (fad : Fad)
    (count size : Nat) : mediaSectors s fad count size = mediaSectors t fad count size := by
  simp only [mediaSectors, hm, hd]

/-! ### The cache refill (R251) -/

@[simp] theorem fillCache_irq (s : State) : (fillCache s).irq = s.irq := rfl
@[simp] theorem fillCache_dma (s : State) : (fillCache s).dma = s.dma := rfl
@[simp] theorem fillCache_hostMem (s : State) : (fillCache s).hostMem = s.hostMem := rfl
@[simp] theorem fillCache_media (s : State) : (fillCache s).media = s.media := rfl
@[simp] theorem fillCache_cfg (s : State) : (fillCache s).cfg = s.cfg := rfl
@[simp] theorem fillCache_pending (s : State) : (fillCache s).pending = s.pending := rfl
@[simp] theorem fillCache_events (s : State) : (fillCache s).events = s.events := rfl
@[simp] theorem fillCache_draws (s : State) : (fillCache s).draws = s.draws + 1 := rfl
@[simp] theorem fillCache_state (s : State) : (fillCache s).drive.state = s.drive.state := rfl
@[simp] theorem fillCache_rd (s : State) : (fillCache s).drive.cache.rd = 0 := rfl

/-- What a refill can do: it replaces the cache and moves the read request on, and nothing else. -/
theorem fillCache_eq (s : State) : fillCache s = { s with
    draws := s.draws + 1
    drive.cache := (fillCache s).drive.cache
    drive.rr := (fillCache s).drive.rr } := rfl

/-! ### Sectors read into a PIO window (R127) -/

/-- Every sector has a word at least, under the bounds of log entry 21. -/
theorem two_le_sectorBytes {c : Cfg} (hc : c.Fits) (z : SectorSize) : 2 ≤ sectorBytes c z := by
  obtain ⟨-, -, -, -, h2, h3, -⟩ := hc
  cases z
  · exact h2
  · exact Nat.le_trans h2 h3

/-- No sector is longer than a raw one, under the bounds of log entry 21. -/
theorem sectorBytes_le {c : Cfg} (hc : c.Fits) (z : SectorSize) : sectorBytes c z ≤ c.sectorRaw := by
  obtain ⟨-, -, -, -, -, h3, -⟩ := hc
  cases z
  · exact h3
  · exact Nat.le_refl _

/-- `enter(ReadSectorPio)` with sectors left: a window of up to `PIO_BURST_SECTORS` of them. -/
theorem enterReadSectorPio_next {s : State} (hc : s.cfg.Fits) (h : mapped s.drive.state .readSectorPio = true)
    (hr : s.drive.rr.remaining ≠ 0) :
    enterReadSectorPio s = .next (windowOpen
      (mediaSectors s s.drive.rr.startSector (min s.drive.rr.remaining.toNat s.cfg.pioBurstSectors)
        (sectorBytes s.cfg s.drive.rr.sectorSize))
      (if s.drive.rr.remaining.toNat > s.cfg.pioBurstSectors then .readSectorPio else .pioEnd)
      (advanceRead (min s.drive.rr.remaining.toNat s.cfg.pioBurstSectors) s.nextDraw)) := by
  have hpos : 0 < s.drive.rr.remaining.toNat := by
    rcases Nat.eq_zero_or_pos s.drive.rr.remaining.toNat with h0 | h0
    · exact absurd (BitVec.eq_of_toNat_eq (by simpa using h0)) hr
    · exact h0
  have hsz : 2 ≤ sectorBytes s.cfg s.drive.rr.sectorSize := two_le_sectorBytes hc _
  have hb : 1 ≤ s.cfg.pioBurstSectors := hc.2.2.2.1
  have hlen : 2 ≤ min s.drive.rr.remaining.toNat s.cfg.pioBurstSectors * sectorBytes s.cfg s.drive.rr.sectorSize := by
    have : 1 ≤ min s.drive.rr.remaining.toNat s.cfg.pioBurstSectors := by omega
    calc 2 ≤ 1 * sectorBytes s.cfg s.drive.rr.sectorSize := by omega
      _ ≤ _ := Nat.mul_le_mul_right _ this
  simp only [enterReadSectorPio, moveTo_next h, andThen_next]
  rw [stageReply_window (by rfl) (by simp) hlen]
  rw [List.take_of_length_le (by simp)]
  rw [mediaSectors_congr (t := s) rfl rfl]
  rfl

/-- `enter(ReadSectorPio)` with no sector left (R132): the end of the command. -/
theorem enterReadSectorPio_empty {s : State} (h : mapped s.drive.state .readSectorPio = true)
    (hr : s.drive.rr.remaining = 0) :
    enterReadSectorPio s = .next (replied [] s.nextDraw) := by
  have h0 : s.drive.rr.remaining.toNat = 0 := by simp [hr]
  have ha : advanceRead 0 s.nextDraw = s.nextDraw := by simp [advanceRead]; rfl
  simp only [enterReadSectorPio, moveTo_next h, andThen_next]
  simp only [h0]
  rw [if_neg (Nat.not_lt_zero _), stageReply_next (by rfl) (by rfl) (by simp)]
  simp only [Nat.zero_min, Nat.zero_mul, List.take_zero]
  rw [← ha]
  rfl

/-! ### Host accesses -/

/-- A read of an 8-bit port that passes the width check and the gate. -/
theorem portRead_next {w : Width} {s : State} {k : State → Byte × State} (hw : w ≠ .w32)
    (hg : slaveSelected s.drive.driveSelect = false) :
    portRead w s k = .next ((k s).2.emit (.readValue w ((k s).1.setWidth 16))) := by
  simp [portRead, hw, hg]

/-- A write of an 8-bit port that passes the width check and the gate. -/
theorem portWrite_next {w : Width} {v : BitVec 32} {s : State} {k : Byte → State → Res} (hw : w ≠ .w32)
    (hg : slaveSelected s.drive.driveSelect = false) : portWrite w v s k = k (v.setWidth 8) s := by
  simp [portWrite, hw, hg]

/-- An access to the Data port that passes the width check and the gate. -/
theorem dataAccess_next {s : State} {g k : State → Res} (hg : slaveSelected s.drive.driveSelect = false) :
    dataAccess .w16 s g k = k s := by
  simp [dataAccess, hg]

end Sys2Proof.Machine
end

