-- ==== Sys2Proof/Laws/Agents.lean ====
section
/-! SUPPORT. What the parts of the DMA tick do (R251, R254), the laws of repeated operations and of what a run has put
out, and of the bytes a DMA read has still to deliver. -/

namespace Sys2Proof.Machine

/-- Step 1 of the tick (R254, R251), field by field. -/
theorem dmaRefill_eq (s : State) : dmaRefill s =
    if s.drive.cache.avail = 0 ∧ s.drive.rr.remaining ≠ 0 then { s with
      draws := s.draws + 1
      drive.cache := {
        bytes := mediaSectors s s.drive.rr.startSector (min s.drive.rr.remaining.toNat s.cfg.cacheSectors)
            (sectorBytes s.cfg s.drive.rr.sectorSize) ++
          s.drive.cache.bytes.drop (min s.drive.rr.remaining.toNat s.cfg.cacheSectors * sectorBytes s.cfg s.drive.rr.sectorSize)
        rd := 0
        avail := min s.drive.rr.remaining.toNat s.cfg.cacheSectors * sectorBytes s.cfg s.drive.rr.sectorSize }
      drive.rr.startSector := s.drive.rr.startSector + BitVec.ofNat 32 (min s.drive.rr.remaining.toNat s.cfg.cacheSectors)
      drive.rr.remaining := s.drive.rr.remaining - BitVec.ofNat 32 (min s.drive.rr.remaining.toNat s.cfg.cacheSectors) }
    else s := by
  simp only [dmaRefill]
  split
  · simp only [fillCache, advanceRead, State.nextDraw, bufFill]
    rw [List.take_of_length_le (by simp)]
  · rfl

/-- Step 2 of the tick (R254, R60), field by field; a store of no byte puts out no event. -/
theorem dmaMove_eq (n : Nat) (s : State) : dmaMove n s = { s with
    hostMem := memWriteBytes s.hostMem s.dma.cursor (bufSlice s.drive.cache.bytes s.drive.cache.rd n)
    events := s.events ++
      (if n = 0 then [] else [.hostMemWrite s.dma.cursor (bufSlice s.drive.cache.bytes s.drive.cache.rd n)])
    drive.cache.rd := s.drive.cache.rd + n
    drive.cache.avail := s.drive.cache.avail - n
    dma.cursor := s.dma.cursor + BitVec.ofNat 32 n } := by
  simp only [dmaMove, hostMemWrite]
  by_cases h : n = 0
  · subst h; simp [bufSlice, memWriteBytes]
  · simp [h, State.emit]

/-- Step 3 of the tick (R254), field by field. -/
theorem dmaCountUp_eq (n : Nat) (s : State) : dmaCountUp n s = { s with
    dma.transferred := s.dma.transferred + BitVec.ofNat 32 n
    dma.start := s.dma.start && decide (s.dma.transferred + BitVec.ofNat 32 n ≠ s.dma.length)
    irq.dmaComplete := s.irq.dmaComplete || decide (s.dma.transferred + BitVec.ofNat 32 n = s.dma.length)
    events := s.events ++
      (if s.dma.transferred + BitVec.ofNat 32 n = s.dma.length then [.raise .dmaComplete] else []) } := by
  simp only [dmaCountUp]
  by_cases h : s.dma.transferred + BitVec.ofNat 32 n = s.dma.length
  · simp [h, raiseLine, State.emit, IrqPending.set]
  · simp [h]

/-! ### Repeated operations -/

@[simp] theorem repeatExec_zero (i : Instr) (s : State) : repeatExec i 0 s = .next s := rfl

/-- One operation more is one operation, then the others. -/
theorem repeatExec_succ (i : Instr) (n : Nat) (s : State) :
    repeatExec i (n + 1) s = andThen (exec i s) (repeatExec i n) := rfl

/-- A run cut in two. -/
theorem repeatExec_add (i : Instr) (a b : Nat) (s : State) :
    repeatExec i (a + b) s = andThen (repeatExec i a s) (repeatExec i b) := by
  induction a generalizing s with
  | zero => simp
  | succ a ih =>
    rw [Nat.succ_add]
    simp only [repeatExec_succ]
    cases exec i s <;> simp [ih]

@[simp] theorem readValues_append (a b : List Event) : readValues (a ++ b) = readValues a ++ readValues b := by
  simp [readValues]

@[simp] theorem audioSectors_append (a b : List Event) : audioSectors (a ++ b) = audioSectors a ++ audioSectors b := by
  simp [audioSectors]

@[simp] theorem storedBytes_append (a b : List Event) : storedBytes (a ++ b) = storedBytes a ++ storedBytes b := by
  simp [storedBytes]

/-- Stores are consecutive if those of the first part are and those of the second go on where they end. -/
theorem storesFrom_append (addr : Addr) (a b : List Event) : storesFrom addr (a ++ b) =
    (storesFrom addr a && storesFrom (addr + BitVec.ofNat 32 (storedBytes a).length) b) := by
  induction a generalizing addr with
  | nil => simp [storesFrom, storedBytes]
  | cons e es ih =>
    cases e with
    | hostMemWrite x y => simp [storesFrom, storedBytes, ih, BitVec.ofNat_add, BitVec.add_assoc, Bool.and_assoc]
    | _ => simp [storesFrom, storedBytes, ih]

/-! ### The bytes still to be delivered -/

/-- The batches depend on the backend and the configuration alone. -/
theorem batches_congr {s t : State} (h : s.media = t.media) (hc : s.cfg = t.cfg) (size fuel draw : Nat) (start : Fad) (remaining : Nat) :
    batches s size fuel draw start remaining = batches t size fuel draw start remaining := by
  induction fuel generalizing draw start remaining with
  | zero => rfl
  | succ f ih =>
    simp only [batches]
    split
    · rfl
    · rw [mediaSectors_congr (s := { s with draws := draw }) (t := { t with draws := draw }) h rfl, ih, hc]

/-- Fuel for the sectors that remain is enough. -/
theorem batches_fuel (s : State) (hc : 1 ≤ s.cfg.cacheSectors) (size f g draw : Nat) (start : Fad) (remaining : Nat) (hf : remaining ≤ f)
    (hg : remaining ≤ g) : batches s size f draw start remaining = batches s size g draw start remaining := by
  induction f generalizing g draw start remaining with
  | zero =>
    obtain rfl : remaining = 0 := by omega
    cases g <;> simp [batches]
  | succ f ih =>
    cases g with
    | zero =>
      obtain rfl : remaining = 0 := by omega
      simp [batches]
    | succ g =>
      simp only [batches]
      split
      · rfl
      · rw [ih g _ _ _ (by omega) (by omega)]

/-- The batches have the length of the sectors that remain. -/
theorem batches_length (s : State) (hc : 1 ≤ s.cfg.cacheSectors) (size fuel draw : Nat) (start : Fad) (remaining : Nat) (h : remaining ≤ fuel) :
    (batches s size fuel draw start remaining).length = remaining * size := by
  induction fuel generalizing draw start remaining with
  | zero =>
    obtain rfl : remaining = 0 := by omega
    simp [batches]
  | succ f ih =>
    simp only [batches]
    split
    · rename_i h0
      simp [h0]
    · rw [List.length_append, mediaSectors_length, ih _ _ _ (by omega), ← Nat.add_mul]
      congr 1
      omega

end Sys2Proof.Machine
end

