-- ==== Sys2Proof/Laws/Dispatch.lean ====
section
/-! SUPPORT. The two dispatches run the meanings that `exec` runs (R180, R200), and which packet commands need a disc. -/

namespace Sys2Proof.Machine

/-! ### The commands that need a disc (R200) -/

@[simp] theorem needsMedia_testUnit : needsMedia .testUnit = false := rfl
@[simp] theorem needsMedia_reqStat : ∀ a b, needsMedia (.reqStat a b) = false := fun _ _ => rfl
@[simp] theorem needsMedia_reqMode : ∀ a b, needsMedia (.reqMode a b) = false := fun _ _ => rfl
@[simp] theorem needsMedia_setMode : ∀ a b, needsMedia (.setMode a b) = false := fun _ _ => rfl
@[simp] theorem needsMedia_reqError : ∀ a, needsMedia (.reqError a) = false := fun _ => rfl
@[simp] theorem needsMedia_getToc : ∀ a b, needsMedia (.getToc a b) = true := fun _ _ => rfl
@[simp] theorem needsMedia_reqSes : ∀ a b, needsMedia (.reqSes a b) = true := fun _ _ => rfl
@[simp] theorem needsMedia_cdOpen : needsMedia .cdOpen = false := rfl
@[simp] theorem needsMedia_cdPlay : ∀ a b c d, needsMedia (.cdPlay a b c d) = true := fun _ _ _ _ => rfl
@[simp] theorem needsMedia_cdSeek : ∀ a b, needsMedia (.cdSeek a b) = true := fun _ _ => rfl
@[simp] theorem needsMedia_cdScan : needsMedia .cdScan = false := rfl
@[simp] theorem needsMedia_cdRead : ∀ a b c, needsMedia (.cdRead a b c) = true := fun _ _ _ => rfl
@[simp] theorem needsMedia_cdRead2 : ∀ a b c, needsMedia (.cdRead2 a b c) = true := fun _ _ _ => rfl
@[simp] theorem needsMedia_getScd : ∀ a b, needsMedia (.getScd a b) = true := fun _ _ => rfl
@[simp] theorem needsMedia_pktUnknown : ∀ a, needsMedia (.pktUnknown a) = false := fun _ => rfl
@[simp] theorem needsMedia_cdPlayFad : ∀ a b c, needsMedia (.cdPlayFad a b c) = true := fun _ _ _ => rfl
@[simp] theorem needsMedia_cdPlayMsf : ∀ a b c, needsMedia (.cdPlayMsf a b c) = true := fun _ _ _ => rfl
@[simp] theorem needsMedia_cdPlayResume : needsMedia .cdPlayResume = true := rfl
@[simp] theorem needsMedia_getScdRaw : ∀ a, needsMedia (.getScdRaw a) = true := fun _ => rfl
@[simp] theorem needsMedia_getScdQ : ∀ a, needsMedia (.getScdQ a) = true := fun _ => rfl
@[simp] theorem needsMedia_getScdMcn : ∀ a, needsMedia (.getScdMcn a) = true := fun _ => rfl

/-- Every CD_PLAY needs a disc. -/
theorem needsMedia_decodePlay (p : List Byte) : needsMedia (decodePlay p) = true := by
  unfold decodePlay
  dsimp only
  repeat' split
  all_goals rfl

/-- Every GET_SCD needs a disc. -/
theorem needsMedia_decodeSubcode (p : List Byte) : needsMedia (decodeSubcode p) = true := by
  unfold decodeSubcode
  dsimp only
  repeat' split
  all_goals rfl

/-! ### The meanings the dispatches run -/

/-- What holds of both branches holds of a choice between them. -/
theorem runPacket_exec_ite (c : Prop) [Decidable c] (a b : Instr) (ha : ∀ s, runPacket a s = exec a s)
    (hb : ∀ s, runPacket b s = exec b s) (s : State) :
    runPacket (if c then a else b) s = exec (if c then a else b) s := by
  split
  · exact ha s
  · exact hb s

/-- A CD_PLAY runs its meaning. -/
theorem runPacket_decodePlay (p : List Byte) (s : State) : runPacket (decodePlay p) s = exec (decodePlay p) s := by
  unfold decodePlay
  dsimp only
  repeat' split
  all_goals rfl

/-- A GET_SCD runs its meaning. -/
theorem runPacket_decodeSubcode (p : List Byte) (s : State) :
    runPacket (decodeSubcode p) s = exec (decodeSubcode p) s := by
  unfold decodeSubcode
  dsimp only
  repeat' split
  all_goals rfl

/-- The packet dispatch runs the meaning of the command the packet decodes to. -/
theorem runPacket_decodePacket (c : Cfg) (p : List Byte) (s : State) :
    runPacket (decodePacket c p) s = exec (decodePacket c p) s := by
  revert s
  unfold decodePacket
  dsimp only
  repeat' apply runPacket_exec_ite
  all_goals first
    | exact runPacket_decodePlay p
    | exact runPacket_decodeSubcode p
    | exact fun _ => rfl

/-- The packet dispatch runs the command or the media-absent error (R200). -/
theorem runPacket_selected (c : Cfg) (p : List Byte) (s t : State) :
    runPacket (selectPacket t (decodePacket c p)) s = exec (selectPacket t (decodePacket c p)) s := by
  unfold selectPacket
  exact runPacket_exec_ite _ _ _ (fun _ => rfl) (runPacket_decodePacket c p) s

/-- The ATA dispatch runs the meaning of the command the byte decodes to. -/
theorem runAta_decodeAta (c : Cfg) (b : Byte) (s : State) : runAta (decodeAta c b) s = exec (decodeAta c b) s := by
  unfold decodeAta
  repeat' split
  all_goals rfl

/-- The ATA dispatch runs the command or the rejection (R180). -/
theorem runAta_selected (c : Cfg) (b : Byte) (s t : State) :
    runAta (selectAta t (decodeAta c b)) s = exec (selectAta t (decodeAta c b)) s := by
  unfold selectAta
  split
  · rfl
  · exact runAta_decodeAta c b s

end Sys2Proof.Machine
end

