-- ==== Sys2Proof/Laws/Memory.lean ====
section
/-! SUPPORT. The laws of host memory: every store keeps the canonical form, reads back what it stored and leaves every
other address alone. -/

namespace Sys2Proof.Machine

/-- Every address of a memory after a store is the stored one or was there before. -/
theorem memWrite_mem {m : List Host.Cell} {a : Nat} {v : Byte} {c : Host.Cell} (h : c ∈ memWrite m a v) :
    c = (a, v) ∨ c ∈ m := by
  induction m with
  | nil => simpa [memWrite] using h
  | cons d m ih =>
    simp only [memWrite] at h
    split at h
    · simpa using h
    · split at h
      · rcases List.mem_cons.1 h with h | h
        · exact .inl h
        · exact .inr (List.mem_cons_of_mem _ h)
      · rcases List.mem_cons.1 h with h | h
        · exact .inr (h ▸ List.mem_cons_self)
        · exact (ih h).imp id (List.mem_cons_of_mem _)

/-- A store keeps the addresses strictly rising. -/
theorem memWrite_rising {m : List Host.Cell} (a : Nat) (v : Byte) (h : m.Pairwise (fun x y => x.1 < y.1)) :
    (memWrite m a v).Pairwise (fun x y => x.1 < y.1) := by
  induction m with
  | nil => simp [memWrite]
  | cons d m ih =>
    obtain ⟨hd, hm⟩ := List.pairwise_cons.1 h
    simp only [memWrite]
    split
    case isTrue hlt =>
      refine List.pairwise_cons.2 ⟨fun c hc => ?_, h⟩
      rcases List.mem_cons.1 hc with rfl | hc
      · exact hlt
      · exact Nat.lt_trans hlt (hd c hc)
    case isFalse hge =>
      split
      case isTrue heq => exact List.pairwise_cons.2 ⟨fun c hc => heq ▸ hd c hc, hm⟩
      case isFalse hne =>
        refine List.pairwise_cons.2 ⟨fun c hc => ?_, ih hm⟩
        rcases memWrite_mem hc with rfl | hc
        · show d.1 < a
          omega
        · exact hd c hc

/-- A store inside the address space keeps the canonical form. -/
theorem memWrite_wf {m : List Host.Cell} {a : Nat} (v : Byte) (ha : a < 4294967296) (h : Memory.wf m) :
    Memory.wf (memWrite m a v) := by
  refine ⟨memWrite_rising a v h.1, fun c hc => ?_⟩
  rcases memWrite_mem hc with rfl | hc
  · exact ha
  · exact h.2 c hc

/-- Storing a byte sequence keeps the canonical form. -/
theorem memWriteBytes_wf {m : List Host.Cell} (addr : Addr) (bs : List Byte) (h : Memory.wf m) :
    Memory.wf (memWriteBytes m addr bs) := by
  induction bs generalizing m addr with
  | nil => exact h
  | cons b bs ih => exact ih (addr + 1) (memWrite_wf b addr.isLt h)

/-- The memory of the reset state is in canonical form. -/
theorem reset_memory_wf : Memory.wf State.reset.hostMem := by decide

/-- What `hostMemWrite` can do: nothing for a store of no byte, else the event and the store. -/
theorem hostMemWrite_wf {addr : Addr} {bs : List Byte} {n : Nat} {s : State} (h : Memory.wf s.hostMem) :
    Memory.wf (hostMemWrite addr bs n s).hostMem := by
  unfold hostMemWrite
  split
  · exact h
  · exact memWriteBytes_wf addr bs h

/-- A read after a store of one byte. -/
theorem memRead_memWrite (m : List Host.Cell) (a b : Nat) (v : Byte) (h : m.Pairwise (fun x y => x.1 < y.1)) :
    memRead (memWrite m a v) b = if b = a then some v else memRead m b := by
  induction m with
  | nil => simp [memWrite, memRead]
  | cons d m ih =>
    obtain ⟨hd, hm⟩ := List.pairwise_cons.1 h
    simp only [memWrite]
    split
    · simp [memRead]
    · split
      · rename_i heq
        by_cases hb : b = a
        · simp [memRead, hb]
        · have hd : b ≠ d.1 := heq ▸ hb
          simp [memRead, hb, hd]
      · rename_i hne
        simp only [memRead, ih hm]
        by_cases hb : b = d.1
        · simp [hb, Ne.symm hne]
        · simp [hb]

/-- A store of two sequences is the store of the second where the first one ends. -/
theorem memWriteBytes_append (m : List Host.Cell) (addr : Addr) (a b : List Byte) : memWriteBytes m addr (a ++ b) =
    memWriteBytes (memWriteBytes m addr a) (addr + BitVec.ofNat 32 a.length) b := by
  induction a generalizing m addr with
  | nil => simp [memWriteBytes]
  | cons x xs ih =>
    simp only [List.cons_append, memWriteBytes, ih, List.length_cons]
    rw [BitVec.add_assoc, Nat.add_comm xs.length 1, BitVec.ofNat_add]
    rfl

end Sys2Proof.Machine
end

