-- ==== Sys2Proof/Laws/PerInstr.lean ====
section
/-! SUPPORT. The laws stated for every operation, one lemma per constructor of `Instr`. -/

open Sys2Proof

/-- A frame of the packet format has `PACKET_BYTES` bytes (R80). -/
def Sys2Proof.Laws.packetSized (c : Cfg) : Frame → Bool
  | .packet p => p.length == c.packetBytes
  | _ => true

/-- The frame of an operation is of the operation's own format (R80), and a packet has `PACKET_BYTES` bytes. -/
def Sys2Proof.Laws.EncodedFormat.Statement (i : Instr) : Prop :=
  ∀ (c : Cfg) (f : Frame), c.Wf → encode c i = some f → f.format = i.format ∧ Sys2Proof.Laws.packetSized c f = true

/-- A packet of an opcode and its operand bytes is a frame of the packet format, of the right size. -/
theorem Sys2Proof.Laws.packetFrame_format {c : Cfg} {op b1 b2 b3 b4 b5 b6 b7 b8 b9 b10 : Byte} {f : Frame} (hc : c.Wf)
    (h : packetFrame c op b1 b2 b3 b4 b5 b6 b7 b8 b9 b10 = some f) :
    f.format = .pkt12 ∧ Sys2Proof.Laws.packetSized c f = true := by
  have h12 : 12 ≤ c.packetBytes := hc.2.1
  obtain rfl := Option.some.inj h
  refine ⟨rfl, ?_⟩
  simp [Sys2Proof.Laws.packetSized]
  omega

/-- A read of a port, if the port has an address, is a frame of the read format. -/
theorem Sys2Proof.Laws.encodeRead_format {c : Cfg} {p : Port} {w : Width} {f : Frame}
    (h : encodeRead c p w = some f) : f.format = .portR ∧ Sys2Proof.Laws.packetSized c f = true := by
  obtain ⟨a, -, rfl⟩ := Option.map_eq_some_iff.1 h
  exact ⟨rfl, rfl⟩

/-- A write of a port, if the port has an address, is a frame of the write format. -/
theorem Sys2Proof.Laws.encodeWrite_format {c : Cfg} {p : Port} {w : Width} {v : BitVec 32} {f : Frame}
    (h : encodeWrite c p w v = some f) : f.format = .portW ∧ Sys2Proof.Laws.packetSized c f = true := by
  obtain ⟨a, -, rfl⟩ := Option.map_eq_some_iff.1 h
  exact ⟨rfl, rfl⟩

theorem Sys2Proof.Laws.EncodedFormat.nop :
    Sys2Proof.Laws.EncodedFormat.Statement .nop := fun _ _ _ h => Option.some.inj h ▸ ⟨rfl, rfl⟩

theorem Sys2Proof.Laws.EncodedFormat.softReset :
    Sys2Proof.Laws.EncodedFormat.Statement .softReset := fun _ _ _ h => Option.some.inj h ▸ ⟨rfl, rfl⟩

theorem Sys2Proof.Laws.EncodedFormat.executeDiagnostic :
    Sys2Proof.Laws.EncodedFormat.Statement .executeDiagnostic := fun _ _ _ h => Option.some.inj h ▸ ⟨rfl, rfl⟩

theorem Sys2Proof.Laws.EncodedFormat.packet :
    Sys2Proof.Laws.EncodedFormat.Statement .packet := fun _ _ _ h => Option.some.inj h ▸ ⟨rfl, rfl⟩

theorem Sys2Proof.Laws.EncodedFormat.identifyDevice :
    Sys2Proof.Laws.EncodedFormat.Statement .identifyDevice := fun _ _ _ h => Option.some.inj h ▸ ⟨rfl, rfl⟩

theorem Sys2Proof.Laws.EncodedFormat.setFeatures :
    Sys2Proof.Laws.EncodedFormat.Statement .setFeatures := fun _ _ _ h => Option.some.inj h ▸ ⟨rfl, rfl⟩

theorem Sys2Proof.Laws.EncodedFormat.identify :
    Sys2Proof.Laws.EncodedFormat.Statement .identify := fun _ _ _ h => Option.some.inj h ▸ ⟨rfl, rfl⟩

theorem Sys2Proof.Laws.EncodedFormat.ataUnknown (opcode : Byte) :
    Sys2Proof.Laws.EncodedFormat.Statement (.ataUnknown opcode) := fun _ _ _ h => Option.some.inj h ▸ ⟨rfl, rfl⟩

theorem Sys2Proof.Laws.EncodedFormat.ataSwapReject :
    Sys2Proof.Laws.EncodedFormat.Statement .ataSwapReject := fun _ _ _ h => nomatch h

theorem Sys2Proof.Laws.EncodedFormat.testUnit :
    Sys2Proof.Laws.EncodedFormat.Statement .testUnit := fun _ _ hc h => Sys2Proof.Laws.packetFrame_format hc h

theorem Sys2Proof.Laws.EncodedFormat.reqStat (offset length : Byte) :
    Sys2Proof.Laws.EncodedFormat.Statement (.reqStat offset length) :=
  fun _ _ hc h => Sys2Proof.Laws.packetFrame_format hc h

theorem Sys2Proof.Laws.EncodedFormat.reqMode (offset length : Byte) :
    Sys2Proof.Laws.EncodedFormat.Statement (.reqMode offset length) :=
  fun _ _ hc h => Sys2Proof.Laws.packetFrame_format hc h

theorem Sys2Proof.Laws.EncodedFormat.setMode (offset length : Byte) :
    Sys2Proof.Laws.EncodedFormat.Statement (.setMode offset length) :=
  fun _ _ hc h => Sys2Proof.Laws.packetFrame_format hc h

theorem Sys2Proof.Laws.EncodedFormat.reqError (length : Byte) :
    Sys2Proof.Laws.EncodedFormat.Statement (.reqError length) := fun _ _ hc h => Sys2Proof.Laws.packetFrame_format hc h

theorem Sys2Proof.Laws.EncodedFormat.getToc (area : Bool) (req : Half) :
    Sys2Proof.Laws.EncodedFormat.Statement (.getToc area req) := by
  intro c f hc h
  simp only [encode] at h
  split at h <;> exact Sys2Proof.Laws.packetFrame_format hc h

theorem Sys2Proof.Laws.EncodedFormat.reqSes (session length : Byte) :
    Sys2Proof.Laws.EncodedFormat.Statement (.reqSes session length) :=
  fun _ _ hc h => Sys2Proof.Laws.packetFrame_format hc h

theorem Sys2Proof.Laws.EncodedFormat.cdOpen :
    Sys2Proof.Laws.EncodedFormat.Statement .cdOpen := fun _ _ hc h => Sys2Proof.Laws.packetFrame_format hc h

theorem Sys2Proof.Laws.EncodedFormat.cdPlay (ptype : BitVec 3) (start : Addr3) (rep : BitVec 4) (stop : Addr3) :
    Sys2Proof.Laws.EncodedFormat.Statement (.cdPlay ptype start rep stop) :=
  fun _ _ hc h => Sys2Proof.Laws.packetFrame_format hc h

theorem Sys2Proof.Laws.EncodedFormat.cdSeek (ptype : BitVec 4) (target : Addr3) :
    Sys2Proof.Laws.EncodedFormat.Statement (.cdSeek ptype target) :=
  fun _ _ hc h => Sys2Proof.Laws.packetFrame_format hc h

theorem Sys2Proof.Laws.EncodedFormat.cdScan :
    Sys2Proof.Laws.EncodedFormat.Statement .cdScan := fun _ _ hc h => Sys2Proof.Laws.packetFrame_format hc h

theorem Sys2Proof.Laws.EncodedFormat.cdRead (flags : ReadFlags) (start : Addr3) (count : BitVec 24) :
    Sys2Proof.Laws.EncodedFormat.Statement (.cdRead flags start count) :=
  fun _ _ hc h => Sys2Proof.Laws.packetFrame_format hc h

theorem Sys2Proof.Laws.EncodedFormat.cdRead2 (flags : ReadFlags) (start : Addr3) (count : Half) :
    Sys2Proof.Laws.EncodedFormat.Statement (.cdRead2 flags start count) :=
  fun _ _ hc h => Sys2Proof.Laws.packetFrame_format hc h

theorem Sys2Proof.Laws.EncodedFormat.getScd (format : BitVec 4) (alloc : Half) :
    Sys2Proof.Laws.EncodedFormat.Statement (.getScd format alloc) :=
  fun _ _ hc h => Sys2Proof.Laws.packetFrame_format hc h

theorem Sys2Proof.Laws.EncodedFormat.pktUnknown (opcode : Byte) :
    Sys2Proof.Laws.EncodedFormat.Statement (.pktUnknown opcode) :=
  fun _ _ hc h => Sys2Proof.Laws.packetFrame_format hc h

theorem Sys2Proof.Laws.EncodedFormat.cdPlayFad (start : Addr3) (rep : BitVec 4) (stop : Addr3) :
    Sys2Proof.Laws.EncodedFormat.Statement (.cdPlayFad start rep stop) :=
  fun _ _ hc h => Sys2Proof.Laws.packetFrame_format hc h

theorem Sys2Proof.Laws.EncodedFormat.cdPlayMsf (start : Addr3) (rep : BitVec 4) (stop : Addr3) :
    Sys2Proof.Laws.EncodedFormat.Statement (.cdPlayMsf start rep stop) :=
  fun _ _ hc h => Sys2Proof.Laws.packetFrame_format hc h

theorem Sys2Proof.Laws.EncodedFormat.cdPlayResume :
    Sys2Proof.Laws.EncodedFormat.Statement .cdPlayResume := fun _ _ hc h => Sys2Proof.Laws.packetFrame_format hc h

theorem Sys2Proof.Laws.EncodedFormat.getScdRaw (alloc : Half) :
    Sys2Proof.Laws.EncodedFormat.Statement (.getScdRaw alloc) := fun _ _ hc h => Sys2Proof.Laws.packetFrame_format hc h

theorem Sys2Proof.Laws.EncodedFormat.getScdQ (alloc : Half) :
    Sys2Proof.Laws.EncodedFormat.Statement (.getScdQ alloc) := fun _ _ hc h => Sys2Proof.Laws.packetFrame_format hc h

theorem Sys2Proof.Laws.EncodedFormat.getScdMcn (alloc : Half) :
    Sys2Proof.Laws.EncodedFormat.Statement (.getScdMcn alloc) := fun _ _ hc h => Sys2Proof.Laws.packetFrame_format hc h

theorem Sys2Proof.Laws.EncodedFormat.pktParamError :
    Sys2Proof.Laws.EncodedFormat.Statement .pktParamError := fun _ _ _ h => nomatch h

theorem Sys2Proof.Laws.EncodedFormat.pktMediaAbsent :
    Sys2Proof.Laws.EncodedFormat.Statement .pktMediaAbsent := fun _ _ _ h => nomatch h

theorem Sys2Proof.Laws.EncodedFormat.r16Data (w : Width) :
    Sys2Proof.Laws.EncodedFormat.Statement (.r16Data w) := fun _ _ _ h => Sys2Proof.Laws.encodeRead_format h

theorem Sys2Proof.Laws.EncodedFormat.w16Data (w : Width) (v : BitVec 32) :
    Sys2Proof.Laws.EncodedFormat.Statement (.w16Data w v) := fun _ _ _ h => Sys2Proof.Laws.encodeWrite_format h

theorem Sys2Proof.Laws.EncodedFormat.r8Error (w : Width) :
    Sys2Proof.Laws.EncodedFormat.Statement (.r8Error w) := fun _ _ _ h => Sys2Proof.Laws.encodeRead_format h

theorem Sys2Proof.Laws.EncodedFormat.w8Features (w : Width) (v : BitVec 32) :
    Sys2Proof.Laws.EncodedFormat.Statement (.w8Features w v) := fun _ _ _ h => Sys2Proof.Laws.encodeWrite_format h

theorem Sys2Proof.Laws.EncodedFormat.r8InterruptReason (w : Width) :
    Sys2Proof.Laws.EncodedFormat.Statement (.r8InterruptReason w) := fun _ _ _ h => Sys2Proof.Laws.encodeRead_format h

theorem Sys2Proof.Laws.EncodedFormat.r8SectorCount (w : Width) :
    Sys2Proof.Laws.EncodedFormat.Statement (.r8SectorCount w) := fun _ _ _ h => Sys2Proof.Laws.encodeRead_format h

theorem Sys2Proof.Laws.EncodedFormat.w8SectorCount (w : Width) (v : BitVec 32) :
    Sys2Proof.Laws.EncodedFormat.Statement (.w8SectorCount w v) := fun _ _ _ h => Sys2Proof.Laws.encodeWrite_format h

theorem Sys2Proof.Laws.EncodedFormat.r8SectorNumber (w : Width) :
    Sys2Proof.Laws.EncodedFormat.Statement (.r8SectorNumber w) := fun _ _ _ h => Sys2Proof.Laws.encodeRead_format h

theorem Sys2Proof.Laws.EncodedFormat.w8SectorNumber (w : Width) (v : BitVec 32) :
    Sys2Proof.Laws.EncodedFormat.Statement (.w8SectorNumber w v) := fun _ _ _ h => Sys2Proof.Laws.encodeWrite_format h

theorem Sys2Proof.Laws.EncodedFormat.r8ByteCountLow (w : Width) :
    Sys2Proof.Laws.EncodedFormat.Statement (.r8ByteCountLow w) := fun _ _ _ h => Sys2Proof.Laws.encodeRead_format h

theorem Sys2Proof.Laws.EncodedFormat.w8ByteCountLow (w : Width) (v : BitVec 32) :
    Sys2Proof.Laws.EncodedFormat.Statement (.w8ByteCountLow w v) := fun _ _ _ h => Sys2Proof.Laws.encodeWrite_format h

theorem Sys2Proof.Laws.EncodedFormat.r8ByteCountHigh (w : Width) :
    Sys2Proof.Laws.EncodedFormat.Statement (.r8ByteCountHigh w) := fun _ _ _ h => Sys2Proof.Laws.encodeRead_format h

theorem Sys2Proof.Laws.EncodedFormat.w8ByteCountHigh (w : Width) (v : BitVec 32) :
    Sys2Proof.Laws.EncodedFormat.Statement (.w8ByteCountHigh w v) := fun _ _ _ h => Sys2Proof.Laws.encodeWrite_format h

theorem Sys2Proof.Laws.EncodedFormat.r8DriveSelect (w : Width) :
    Sys2Proof.Laws.EncodedFormat.Statement (.r8DriveSelect w) := fun _ _ _ h => Sys2Proof.Laws.encodeRead_format h

theorem Sys2Proof.Laws.EncodedFormat.w8DriveSelect (w : Width) (v : BitVec 32) :
    Sys2Proof.Laws.EncodedFormat.Statement (.w8DriveSelect w v) := fun _ _ _ h => Sys2Proof.Laws.encodeWrite_format h

theorem Sys2Proof.Laws.EncodedFormat.r8Status (w : Width) :
    Sys2Proof.Laws.EncodedFormat.Statement (.r8Status w) := fun _ _ _ h => Sys2Proof.Laws.encodeRead_format h

theorem Sys2Proof.Laws.EncodedFormat.w8Command (w : Width) (v : BitVec 32) :
    Sys2Proof.Laws.EncodedFormat.Statement (.w8Command w v) := fun _ _ _ h => Sys2Proof.Laws.encodeWrite_format h

theorem Sys2Proof.Laws.EncodedFormat.r8AltStatus (w : Width) :
    Sys2Proof.Laws.EncodedFormat.Statement (.r8AltStatus w) := fun _ _ _ h => Sys2Proof.Laws.encodeRead_format h

theorem Sys2Proof.Laws.EncodedFormat.w8DeviceControl (w : Width) (v : BitVec 32) :
    Sys2Proof.Laws.EncodedFormat.Statement (.w8DeviceControl w v) := fun _ _ _ h => Sys2Proof.Laws.encodeWrite_format h

theorem Sys2Proof.Laws.EncodedFormat.dmaStart :
    Sys2Proof.Laws.EncodedFormat.Statement .dmaStart := fun _ _ _ h => Option.some.inj h ▸ ⟨rfl, rfl⟩

theorem Sys2Proof.Laws.EncodedFormat.dmaEnable (v : Bool) :
    Sys2Proof.Laws.EncodedFormat.Statement (.dmaEnable v) := fun _ _ _ h => Option.some.inj h ▸ ⟨rfl, rfl⟩

theorem Sys2Proof.Laws.EncodedFormat.tickDma :
    Sys2Proof.Laws.EncodedFormat.Statement .tickDma := fun _ _ _ h => Option.some.inj h ▸ ⟨rfl, rfl⟩

theorem Sys2Proof.Laws.EncodedFormat.tickAudio :
    Sys2Proof.Laws.EncodedFormat.Statement .tickAudio := fun _ _ _ h => Option.some.inj h ▸ ⟨rfl, rfl⟩

theorem Sys2Proof.Laws.EncodedFormat.tickSwap :
    Sys2Proof.Laws.EncodedFormat.Statement .tickSwap := fun _ _ _ h => Option.some.inj h ▸ ⟨rfl, rfl⟩

theorem Sys2Proof.Laws.EncodedFormat.eventHardReset :
    Sys2Proof.Laws.EncodedFormat.Statement .eventHardReset := fun _ _ _ h => Option.some.inj h ▸ ⟨rfl, rfl⟩

theorem Sys2Proof.Laws.EncodedFormat.eventTrayOpen (media : Media) :
    Sys2Proof.Laws.EncodedFormat.Statement (.eventTrayOpen media) := fun _ _ _ h => Option.some.inj h ▸ ⟨rfl, rfl⟩

theorem Sys2Proof.Laws.EncodedFormat.eventTrayClose (media : Media) :
    Sys2Proof.Laws.EncodedFormat.Statement (.eventTrayClose media) := fun _ _ _ h => Option.some.inj h ▸ ⟨rfl, rfl⟩

theorem Sys2Proof.Laws.EncodedFormat.eventSwapBegin (media : Media) :
    Sys2Proof.Laws.EncodedFormat.Statement (.eventSwapBegin media) := fun _ _ _ h => Option.some.inj h ▸ ⟨rfl, rfl⟩
end

