-- ==== Sys2Proof/Tests/Slice0.lean ====
section
/-! SUPPORT. Tests. The words are written out from the tables of R51, R82, R84 and R85 to R91; the expected results are
those of the vectors of file 95, whose ids the comments name (V, A, K, X, D, C, Z, T, P), or are computed by hand from the
rule a comment names. Then a witness for every statement that has hypotheses. -/

namespace Sys2Proof.Slice0Tests

open Sys2Proof Sys2Proof.Machine

set_option maxRecDepth 10000

/-! ### Helpers -/

/-- `Cfg_ref` of file 95: the reference configuration with its two OPEN values set. -/
def tcfg : Cfg := { Cfg.ref with irqOnPioReady := false, identifyBlock := List.replicate 80 0x41 }

/-- `S0(disc)` of file 95. -/
def s0 (disc : DiscType) : State := State.powerUp { tcfg with media := { id := 0, discType := disc, answers := [] } }

/-- `S0` with a backend that has the given answers. -/
def withAnswers (a : List (MediaQuery × List Byte)) : State :=
  { s0 .gdRom with media := { id := 0, discType := .gdRom, answers := a } }

/-- A state in which an ATA command runs (R122). -/
def inAta (s : State) : State := inProcessAta s

/-- A state in which a packet command runs (R124). -/
def inPkt (s : State) : State := inProcessPacket s

/-- `s` in another protocol state. -/
def at' (p : Proto) (s : State) : State := { s with drive.state := p }

/-- Whether a step answers a next state with a property. -/
def check (r : Res) (p : State → Bool) : Bool :=
  match r with
  | .next s => p s
  | _ => false

/-- The next state of a step, and the start state where there is none. -/
def nextOf (r : Res) (s : State) : State :=
  match r with
  | .next t => t
  | _ => s

/-- The sixth word of a packet (`PACKET` of file 95); the bytes not listed are 0. -/
def sixth (p : List Byte) (s : State) : Res :=
  exec (.w16Data .w16 ((packetByte p 11 ++ packetByte p 10 : Half).setWidth 32))
    (packetAwaitingLastWord (p ++ List.replicate (12 - p.length) 0) s)

/-! ### Well-formedness: each check refuses an ill-formed term -/

theorem test_wf_ataUnknown : WellFormed Cfg.ref (.ataUnknown 0xA0) = false := by decide
theorem test_wf_pktUnknown : WellFormed Cfg.ref (.pktUnknown 0x30) = false := by decide
theorem test_wf_cdPlay_fad : WellFormed Cfg.ref (.cdPlay 1 ⟨0, 0, 0⟩ 0 ⟨0, 0, 0⟩) = false := by decide
theorem test_wf_cdPlay_msf : WellFormed Cfg.ref (.cdPlay 2 ⟨0, 0, 0⟩ 0 ⟨0, 0, 0⟩) = false := by decide
theorem test_wf_cdPlay_resume : WellFormed Cfg.ref (.cdPlay 7 ⟨0, 0, 0⟩ 0 ⟨0, 0, 0⟩) = false := by decide
theorem test_wf_getScd_raw : WellFormed Cfg.ref (.getScd 0 1) = false := by decide
theorem test_wf_getScd_q : WellFormed Cfg.ref (.getScd 1 1) = false := by decide
theorem test_wf_getScd_mcn : WellFormed Cfg.ref (.getScd 2 1) = false := by decide
theorem test_wf_w16Data : WellFormed Cfg.ref (.w16Data .w16 0x10000) = false := by decide
theorem test_wf_write8 : [Instr.w8Features .w8 0x100, .w8SectorCount .w8 0x100, .w8SectorNumber .w8 0x100,
    .w8ByteCountLow .w8 0x100, .w8ByteCountHigh .w8 0x100, .w8DriveSelect .w8 0x100, .w8Command .w8 0x100,
    .w8DeviceControl .w8 0x100].all (fun i => !WellFormed Cfg.ref i) = true := by decide
theorem test_wf_trayOpen : WellFormed Cfg.ref (.eventTrayOpen ⟨0, .gdRom, []⟩) = false := by decide
theorem test_wf_trayClose : WellFormed Cfg.ref (.eventTrayClose ⟨0, .trayOpen, []⟩) = false := by decide
theorem test_wf_good : WellFormed Cfg.ref (.w16Data .w16 0xFFFF) = true ∧
    WellFormed Cfg.ref (.getScd 15 1) = true ∧ WellFormed Cfg.ref (.ataUnknown 0x55) = true := by decide

/-! ### Decoding: every operation from its words -/

/-- R82. -/
theorem test_decode_ata : [0x00, 0x08, 0x90, 0xA0, 0xA1, 0xEF, 0xEC, 0x55].map (decodeAta Cfg.ref) =
    [.nop, .softReset, .executeDiagnostic, .packet, .identifyDevice, .setFeatures, .identify, .ataUnknown 0x55] := by
  decide

/-- R84, R85: commands without operands, and an opcode that is not listed. -/
theorem test_decode_plain :
    decodePacket Cfg.ref [0x00, 0, 0, 0, 0, 0, 0, 0, 0, 0, 0, 0] = .testUnit ∧
    decodePacket Cfg.ref [0x16, 0, 0, 0, 0, 0, 0, 0, 0, 0, 0, 0] = .cdOpen ∧
    decodePacket Cfg.ref [0x22, 0, 0, 0, 0, 0, 0, 0, 0, 0, 0, 0] = .cdScan ∧
    decodePacket Cfg.ref [0x70, 0, 0, 0, 0, 0, 0, 0, 0, 0, 0, 0] = .pktUnknown 0x70 := by decide

/-- R85, R86: offset at byte 2, length at byte 4, GET_TOC's length in bytes 4 and 5. -/
theorem test_decode_records :
    decodePacket Cfg.ref [0x10, 0, 5, 0, 3, 0, 0, 0, 0, 0, 0, 0] = .reqStat 5 3 ∧
    decodePacket Cfg.ref [0x11, 0, 0x0A, 0, 8, 0, 0, 0, 0, 0, 0, 0] = .reqMode 10 8 ∧
    decodePacket Cfg.ref [0x12, 0, 4, 0, 6, 0, 0, 0, 0, 0, 0, 0] = .setMode 4 6 ∧
    decodePacket Cfg.ref [0x13, 0, 0, 0, 0x0A, 0, 0, 0, 0, 0, 0, 0] = .reqError 10 ∧
    decodePacket Cfg.ref [0x14, 1, 0, 0xFF, 0x98, 0x01, 0, 0, 0, 0, 0, 0] = .getToc true 408 ∧
    decodePacket Cfg.ref [0x15, 0, 2, 0, 6, 0, 0, 0, 0, 0, 0, 0] = .reqSes 2 6 := by decide

/-- R86: the other place of the high byte. -/
theorem test_decode_toc_byte3 : decodePacket { Cfg.ref with gettocLenHiByte := 3 }
    [0x14, 0, 0, 0x01, 0x98, 0xFF, 0, 0, 0, 0, 0, 0] = .getToc false 408 := by decide

/-- R87, R210: the format in the low nibble of byte 1, the allocation length in bytes 3 and 4, high byte first. -/
theorem test_decode_getScd :
    decodePacket Cfg.ref [0x40, 0, 0, 0x01, 0x02, 0, 0, 0, 0, 0, 0, 0] = .getScdRaw 0x0102 ∧
    decodePacket Cfg.ref [0x40, 1, 0, 0, 0x0E, 0, 0, 0, 0, 0, 0, 0] = .getScdQ 14 ∧
    decodePacket Cfg.ref [0x40, 0xF2, 0, 0, 0x18, 0, 0, 0, 0, 0, 0, 0] = .getScdMcn 24 ∧
    decodePacket Cfg.ref [0x40, 5, 0, 0, 0x0E, 0, 0, 0, 0, 0, 0, 0] = .getScd 5 14 := by decide

/-- R88, R89: the flag byte, the start address, the two places of the count (X4, X8). -/
theorem test_decode_read :
    decodePacket Cfg.ref [0x30, 0xE6, 0x00, 0xB0, 0x5E, 9, 9, 9, 0x01, 0x02, 0x03, 9] =
      .cdRead ⟨false, 3, false, true, true, true⟩ ⟨0x00, 0xB0, 0x5E⟩ 0x010203 ∧
    decodePacket Cfg.ref [0x31, 0x21, 0x01, 0x02, 0x03, 9, 0x01, 0x00, 0xFF, 0xFF, 0xFF, 9] =
      .cdRead2 ⟨true, 0, false, true, false, false⟩ ⟨1, 2, 3⟩ 256 := by decide

/-- R90, R91, R233 (C1, C9, C6, C10, C11). -/
theorem test_decode_play :
    decodePacket Cfg.ref [0x20, 0x09, 0x00, 0x00, 0x64, 0, 0xF2, 0, 0x00, 0x00, 0x67, 0] =
      .cdPlayFad ⟨0, 0, 100⟩ 2 ⟨0, 0, 103⟩ ∧
    decodePacket Cfg.ref [0x20, 0x02, 0x00, 0x02, 0x00, 0, 0x00, 0, 0x00, 0x03, 0x00, 0] =
      .cdPlayMsf ⟨0, 2, 0⟩ 0 ⟨0, 3, 0⟩ ∧
    decodePacket Cfg.ref [0x20, 0x07, 0, 0, 0, 0, 0, 0, 0, 0, 0, 0] = .cdPlayResume ∧
    decodePacket Cfg.ref [0x20, 0x03, 1, 2, 3, 0, 4, 0, 5, 6, 7, 0] = .cdPlay 3 ⟨1, 2, 3⟩ 4 ⟨5, 6, 7⟩ ∧
    decodePacket Cfg.ref [0x21, 0x01, 0x00, 0x00, 0xC8, 0, 0, 0, 0, 0, 0, 0] = .cdSeek 1 ⟨0, 0, 200⟩ := by decide

/-- R51, the reads. -/
theorem test_decode_port_reads : [0x5F7080, 0x5F7084, 0x5F7088, 0x5F708C, 0x5F7090, 0x5F7094, 0x5F7098, 0x5F709C,
      0x5F7018].map (fun a => decode Cfg.ref (.bus (.read .w8 a))) =
    [.ok (.r16Data .w8), .ok (.r8Error .w8), .ok (.r8InterruptReason .w8), .ok (.r8SectorNumber .w8),
     .ok (.r8ByteCountLow .w8), .ok (.r8ByteCountHigh .w8), .ok (.r8DriveSelect .w8), .ok (.r8Status .w8),
     .ok (.r8AltStatus .w8)] := rfl

/-- R51, the writes. -/
theorem test_decode_port_writes : [0x5F7080, 0x5F7084, 0x5F7088, 0x5F708C, 0x5F7090, 0x5F7094, 0x5F7098, 0x5F709C,
      0x5F7018].map (fun a => decode Cfg.ref (.bus (.write .w16 a 7))) =
    [.ok (.w16Data .w16 7), .ok (.w8Features .w16 7), .ok (.w8SectorCount .w16 7), .ok (.w8SectorNumber .w16 7),
     .ok (.w8ByteCountLow .w16 7), .ok (.w8ByteCountHigh .w16 7), .ok (.w8DriveSelect .w16 7), .ok (.w8Command .w16 7),
     .ok (.w8DeviceControl .w16 7)] := rfl

/-- R51 leaves the map to the implementation: one that gives SectorCount a read address (0x5F7088). -/
theorem test_decode_sectorCount_read : decode { Cfg.ref with portMap := [⟨0x5F7088, .read, .sectorCount⟩] }
    (.bus (.read .w8 0x5F7088)) = .ok (.r8SectorCount .w8) := rfl

/-- R97: the other agents' operations. -/
theorem test_decode_agents (m : Media) : [Input.dmaStart, .dmaEnable false, .tickDma, .tickAudio, .tickSwap, .hardReset,
      .trayOpen m, .trayClose m, .swapBegin m].map (fun x => decode Cfg.ref (.bus x)) =
    [.ok .dmaStart, .ok (.dmaEnable false), .ok .tickDma, .ok .tickAudio, .ok .tickSwap, .ok .eventHardReset,
     .ok (.eventTrayOpen m), .ok (.eventTrayClose m), .ok (.eventSwapBegin m)] := rfl

/-- V15: an address that no port has, a packet of eleven bytes. -/
theorem test_decode_rejects : decode Cfg.ref (.bus (.read .w8 0x5F7081)) = .error (.unmappedAccess .w8 .read) ∧
    decode Cfg.ref (.packet [0, 0, 0, 0, 0, 0, 0, 0, 0, 0, 0]) = .error (.packetLength 11) := ⟨rfl, rfl⟩

/-- The words of spec/opcode_table.json: a command byte, a packet opcode, a packet, an address. -/
theorem test_table_words : decodeTableWord 8 0xA0 = some .packet ∧ decodeTableWord 8 0x14 = some (.getToc false 0) ∧
    decodeTableWord 16 0x0120 = some (.cdPlayFad ⟨0, 0, 0⟩ 0 ⟨0, 0, 0⟩) ∧
    decodeTableWord 32 0x5F709C = some (.r8Status .w8) ∧ decodeTableWord 32 0x5F7080 = some (.r16Data .w16) := by decide

/-- A placed instruction is run by the very next step, right after reset. -/
theorem test_withFetchWord : step (State.reset.withFetchWord 8 0xEF) =
      exec (.w8Command .w8 0xEF) State.reset ∧
    check (step ((s0 .gdRom).withFetchWord 8 0x16)) (fun t => t.drive.packet.bytes.getD 0 0 == 0x16) = true := by
  constructor
  · rfl
  · decide

/-! ### ATA commands (file 95, 2.2) -/

/-- A1. -/
theorem test_nop : check (exec (.w8Command .w8 0x00) (s0 .gdRom)) (fun t => t.drive.state == .waitCommand &&
    t.drive.status.check && t.drive.error.abort && t.drive.sense == ⟨0, 0, 0⟩ &&
    t.events == [.raise .commandComplete]) = true := by decide

/-- A2, A3, A4: the disc status nibble after SOFT_RESET. -/
theorem test_softReset : [DiscType.gdRom, .noDisc, .trayOpen].all (fun d =>
    check (exec (.w8Command .w8 0x08) (s0 d)) fun t => t.drive.byteCount == 0xEB14 &&
      t.drive.sectorNumber == (if d == .gdRom then 0x81 else if d == .noDisc then 0x07 else 0x06)) = true := by decide

/-- A2: the player's positions stay. -/
theorem test_softReset_keeps : check (exec .softReset (inAta { s0 .gdRom with
      drive.features := 1, drive.cdda := ⟨.playing, 0xB05E, 0xB05E, 0xB100, 3⟩, drive.sense := ⟨5, 0x20, 0⟩ }))
    (fun t => t.drive.cdda == ⟨.noInfo, 0xB05E, 0xB05E, 0xB100, 3⟩ && t.drive.features == 0 &&
      t.drive.sense == ⟨0, 0, 0⟩) = true := by decide

/-- A5: the stale sense key 5 shows, check and abort are clear. -/
theorem test_executeDiagnostic : check (exec .executeDiagnostic (inAta { s0 .gdRom with drive.sense := ⟨5, 0, 0⟩ }))
    (fun t => !t.drive.status.check && errorByte t.drive.sense.key t.drive.error == 0x50) = true := by decide

/-- A6. -/
theorem test_packet : check (exec (.w8Command .w8 0xA0) (s0 .gdRom)) (fun t => t.drive.state == .waitPacket &&
    t.drive.status.drq && t.drive.ireasonCod && t.drive.packet.index == 0 && t.events == []) = true := by decide

/-- A7. -/
theorem test_identifyDevice : check (exec (.w8Command .w8 0xA1) (s0 .gdRom)) (fun t => t.drive.state == .pioSendData &&
    t.drive.byteCount == 80 && !t.drive.ireasonCod && t.events == []) = true := by decide

/-- A8, A13: the check bit from the stale sense. -/
theorem test_setFeatures : check (exec .setFeatures (inAta { s0 .gdRom with drive.features := 3 }))
      (fun t => t.drive.features == 3 && !t.drive.status.check) = true ∧
    check (exec .setFeatures (inAta { s0 .gdRom with drive.sense := ⟨5, 0, 0⟩ }))
      (fun t => t.drive.status.check && !t.drive.error.abort) = true := by decide

/-- A10. -/
theorem test_identify : check (exec (.w8Command .w8 0xEC) (s0 .gdRom)) (fun t => t.drive.byteCount == 0xEB14 &&
    t.drive.status.check && errorByte t.drive.sense.key t.drive.error == 0x04) = true := by decide

/-- A9, E5: the key only. -/
theorem test_ataUnknown : check (exec (.w8Command .w8 0x55) { s0 .gdRom with drive.sense := ⟨2, 0x20, 7⟩ }) (fun t =>
    t.drive.sense == ⟨5, 0x20, 7⟩ && errorByte t.drive.sense.key t.drive.error == 0x54) = true := by decide

/-- A12. -/
theorem test_ataSwapReject : check (exec (.w8Command .w8 0xA0) { s0 .gdRom with drive.discSwapPending := true }) (fun t =>
    t.drive.sense == ⟨2, 4, 1⟩ && t.drive.state == .waitCommand &&
    errorByte t.drive.sense.key t.drive.error == 0x24) = true := by decide

/-! ### Packet commands (file 95, 2.3 and 2.4) -/

/-- K1, K2, V8: TEST_UNIT's check bit. -/
theorem test_testUnit : check (sixth [0] { s0 .gdRom with drive.sense := ⟨5, 0, 0⟩ })
      (fun t => !t.drive.status.check && t.drive.ireasonCod && t.events == [.raise .commandComplete]) = true ∧
    check (sixth [0] { s0 .gdRom with drive.sectorNumber := 0x30 }) (fun t => t.drive.status.check) = true := by decide

/-- K3: CD_OPEN over sense key 5. -/
theorem test_cdOpen : check (sixth [0x16] { s0 .gdRom with drive.sense := ⟨5, 0, 0⟩, drive.error.abort := true })
    (fun t => t.drive.status.check && errorByte t.drive.sense.key t.drive.error == 0x50 &&
      t.drive.sectorNumber == 0x82) = true := by decide

/-- K18. -/
theorem test_cdScan : check (sixth [0x22] { s0 .gdRom with drive.cdda := ⟨.playing, 1, 1, 9, 2⟩ })
    (fun t => t.drive.cdda == ⟨.playing, 1, 1, 9, 2⟩ && !t.drive.status.check) = true := by decide

/-- K4, K5: the record `01 80 04 03 01 00 B0 5E 00 00`, whole and from offset 5. -/
theorem test_reqStat :
    let s : State := { withAnswers [(.track 0xB05E, [3, 0, 0, 0])] with
      drive.cdda.currentFad := 0xB05E, drive.sectorNumber := 0x81 }
    check (sixth [0x10, 0, 0, 0, 0x0A] s) (fun t => t.drive.byteCount == 10 &&
      t.drive.pio.data == [0x01, 0x80, 0x04, 0x03, 0x01, 0x00, 0xB0, 0x5E, 0x00, 0x00]) = true ∧
    check (sixth [0x10, 0, 5, 0, 3] s) (fun t => t.drive.pio.size == 1 &&
      t.drive.pio.data == [0x00, 0xB0, 0x5E]) = true := by decide

/-- K7: an empty slice ends the command at once. -/
theorem test_reqStat_empty : check (sixth [0x10, 0, 0x0C, 0, 4] (s0 .gdRom)) (fun t => t.drive.state == .waitCommand &&
    !t.drive.status.drq && t.events == [.raise .commandComplete]) = true := by decide

/-- K8, K10. -/
theorem test_reqMode : check (sixth [0x11, 0, 0, 0, 0x0A] (s0 .gdRom)) (fun t =>
      t.drive.pio.data == [0, 0, 0, 0, 0, 0xB4, 0x19, 0, 0, 0x08]) = true ∧
    check (sixth [0x11, 0, 0x1E, 0, 0x0A] (s0 .gdRom)) (fun t => t.drive.pio.data == [0x30, 0x38]) = true := by decide

/-- K11 (the packet), K13. -/
theorem test_setMode : check (sixth [0x12, 0, 4, 0, 6] (s0 .gdRom)) (fun t => t.drive.state == .pioGetData &&
      t.drive.byteCount == 6 && t.drive.pio.size == 3 && t.drive.setModeOffset == 4) = true ∧
    check (sixth [0x12, 0, 0x0C, 0, 4] (s0 .gdRom)) (fun t => t.drive.state == .waitCommand &&
      t.drive.modeBlock == referenceModeBlock && t.drive.setModeOffset == 10) = true := by decide

/-- K14, K15. -/
theorem test_reqError : check (sixth [0x13, 0, 0, 0, 0x0A] { s0 .gdRom with drive.sense := ⟨5, 0x20, 0⟩ }) (fun t =>
      t.drive.pio.data == [0xF0, 0, 5, 0, 0, 0, 0, 0, 0x20, 0] && t.drive.sense == ⟨0, 0, 0⟩ &&
      t.drive.status.check) = true ∧
    check (sixth [0x13] { s0 .gdRom with drive.sense := ⟨5, 0x20, 0⟩ }) (fun t => t.drive.state == .waitCommand &&
      t.drive.sense == ⟨0, 0, 0⟩ && t.drive.status.check) = true := by decide

/-- K24, K26. -/
theorem test_getToc : check (sixth [0x14, 0, 0, 0, 0x64, 0] (withAnswers [(.toc false, List.replicate 408 7)])) (fun t =>
      t.drive.pio.size == 50 && t.drive.byteCount == 100 && t.drive.pio.data == List.replicate 100 7) = true ∧
    check (sixth [0x14, 0, 0, 0, 7, 0] (withAnswers [(.toc false, List.replicate 408 7)]))
      (fun t => t.drive.pio.size == 3) = true := by decide

/-- K28. -/
theorem test_reqSes : check (sixth [0x15, 0, 0, 0, 6] (withAnswers [(.session 0, [0, 2, 0, 0xB0, 0x5E])]))
    (fun t => t.drive.pio.data == [0x02, 0x00, 0x02, 0x00, 0xB0, 0x5E]) = true := by decide

/-- K16. -/
theorem test_getScd : check (sixth [0x40, 5, 0, 0, 0x0E] (s0 .gdRom)) (fun t => t.drive.sense == ⟨5, 0x24, 0⟩ &&
    t.drive.status.check && t.drive.error.abort && t.drive.state == .waitCommand) = true := by decide

/-- K20. -/
theorem test_getScdRaw : check (sixth [0x40, 0, 0, 0xFF, 0xFF] (withAnswers [(.subchannel 96, List.replicate 96 9)]))
    (fun t => t.drive.pio.size == 50 && t.drive.pio.data == [0, 0x15, 0, 0x64] ++ List.replicate 96 9) = true := by decide

/-- K19, K23. -/
theorem test_getScdQ :
    let s : State := { withAnswers [(.track 0xB060, [3, 0, 0, 0x10])] with drive.rr.startSector := 0xB061 }
    check (sixth [0x40, 1, 0, 0, 0x0E] s) (fun t => t.drive.pio.data ==
      [0x00, 0x15, 0x00, 0x0E, 0x41, 0x03, 0x01, 0x00, 0x00, 0x10, 0x00, 0x00, 0xB0, 0x60]) = true ∧
    check (sixth [0x40, 1, 0, 0, 5] s) (fun t => t.drive.pio.size == 2) = true := by decide

/-- U6, D51: with no disc the raw and the Q record are fresh draws, so each call advances the counter. -/
theorem test_subcode_draws : check (exec (.getScdRaw 100) (inPkt (s0 .noDisc))) (fun t => t.draws == 1) = true ∧
    check (exec (.getScdQ 14) (inPkt (s0 .noDisc))) (fun t => t.draws == 1) = true := by decide

/-- K21. -/
theorem test_getScdMcn : check (sixth [0x40, 2, 0, 0, 0x18] (s0 .gdRom)) (fun t => t.drive.pio.data ==
    [0, 0x15, 0, 0x18, 2, 0, 0, 0, 0] ++ List.replicate 13 0x30 ++ [0, 0]) = true := by decide

/-- K14, first step; K17. -/
theorem test_pktUnknown : check (sixth [0x70] (s0 .gdRom)) (fun t => t.drive.sense == ⟨5, 0x20, 0⟩ &&
    errorByte t.drive.sense.key t.drive.error == 0x54 && t.drive.status.check) = true := by decide

/-- C14: the invalid parameter as its own operation. -/
theorem test_pktParamError : check (exec .pktParamError (inPkt (s0 .gdRom))) (fun t =>
    t.drive.sense == ⟨5, 0x24, 0⟩ && t.events == [.raise .commandComplete]) = true := by decide

/-- K29. -/
theorem test_pktMediaAbsent : check (sixth [0x14, 0, 0, 1, 0x98, 1]
    { s0 .noDisc with cfg := { tcfg with mediaAbsentPolicy := .notReady } }) (fun t => t.drive.sense == ⟨2, 0x3A, 0⟩ &&
    errorByte t.drive.sense.key t.drive.error == 0x20 && t.drive.state == .waitCommand) = true := by decide

/-- X2, X3: windows of 27 sectors, the numbers only. -/
theorem test_cdRead_windows : check (sixth [0x30, 0x20, 0, 0xB0, 0x5E, 0, 0, 0, 0, 0, 0] (s0 .gdRom)) (fun t =>
      t.drive.state == .waitCommand && t.drive.rr == ⟨0xB05E, 0, .data⟩) = true ∧
    check (sixth [0x31, 0xE6, 0, 0xB0, 0x5E, 0, 0, 0] (s0 .gdRom)) (fun t =>
      t.drive.rr == ⟨0xB05E, 0, .raw⟩) = true := by decide

/-- D10: a DMA read of no sector fills nothing. -/
theorem test_cdRead2_dma : check (sixth [0x31, 0x20, 0, 0xB0, 0x5E] { s0 .gdRom with drive.features := 1 }) (fun t =>
    t.drive.state == .readSectorDma && t.drive.cache.avail == 0 && t.events == [] && t.drive.ireasonCod) = true := by
  decide

/-- C1, C9. -/
theorem test_cdPlay_address : check (sixth [0x20, 1, 0, 0, 0x64, 0, 0, 0, 0, 0, 0x67] (s0 .gdRom)) (fun t =>
      t.drive.cdda == ⟨.playing, 100, 100, 103, 0⟩ && t.drive.sectorNumber == 0x83) = true ∧
    check (sixth [0x20, 2, 0, 2, 0, 0, 0, 0, 0, 3, 0] (s0 .gdRom)) (fun t =>
      t.drive.cdda == ⟨.playing, 150, 150, 225, 0⟩) = true := by decide

/-- C6: resume at the end, and past it. -/
theorem test_cdPlayResume : check (sixth [0x20, 7] { s0 .gdRom with drive.cdda := ⟨.terminated, 103, 100, 103, 0⟩ })
      (fun t => t.drive.cdda.status == .playing && t.drive.sectorNumber == 0x83) = true ∧
    check (sixth [0x20, 7] { s0 .gdRom with drive.cdda := ⟨.terminated, 104, 100, 103, 0⟩ })
      (fun t => t.drive.cdda.status == .terminated && t.drive.sectorNumber == 0x81) = true := by decide

/-- C11: a parameter type that is not listed. -/
theorem test_cdPlay_other : check (sixth [0x20, 3] (s0 .gdRom)) (fun t => t.drive.sense == ⟨5, 0x24, 0⟩ &&
    t.drive.cdda == ⟨.noInfo, 0, 0, 0, 0⟩) = true := by decide

/-- C12, C13. -/
theorem test_cdSeek : check (sixth [0x21, 1, 0, 0, 0xC8] { s0 .gdRom with drive.cdda := ⟨.playing, 101, 100, 103, 2⟩ })
      (fun t => t.drive.cdda == ⟨.paused, 200, 100, 103, 2⟩ && t.drive.sectorNumber == 0x81) = true ∧
    check (sixth [0x21, 3] { s0 .gdRom with drive.cdda := ⟨.playing, 101, 100, 103, 2⟩ })
      (fun t => t.drive.cdda == ⟨.noInfo, 150, 150, 150, 2⟩ && t.drive.sectorNumber == 0x82) = true := by decide

/-- C7, C14: pause, and a type that is not listed. -/
theorem test_cdSeek_other : check (sixth [0x21, 4] { s0 .gdRom with drive.cdda := ⟨.playing, 101, 100, 103, 0⟩ })
      (fun t => t.drive.cdda == ⟨.paused, 101, 100, 103, 0⟩ && t.drive.sectorNumber == 0x81) = true ∧
    check (sixth [0x21, 5] (s0 .gdRom)) (fun t => t.drive.sense == ⟨5, 0x24, 0⟩) = true := by decide

/-- X4, X5, X6: sector size and address selection. -/
theorem test_address_and_size : sectorSizeOf Cfg.ref (.ofByte 0xE6) = .raw ∧
    sectorSizeOf Cfg.ref (.ofByte 0x80) = .data ∧ addrOf true ⟨1, 2, 3⟩ = 4653 ∧
    addrOf false ⟨0x00, 0xB0, 0x5E⟩ = 0xB05E := by decide

/-! ### Ports (file 95, 2.1) -/

/-- A window of two words, `11 22 33 44`, of which `k` have been read. -/
def reading (k : Nat) : State := { s0 .gdRom with
  drive.state := .pioSendData, drive.pio := ⟨[0x11, 0x22, 0x33, 0x44], k, 2, .pioEnd⟩, drive.byteCount := 4,
  drive.status := ⟨false, false, true, false, false⟩ }

/-- T1's shape: a word, low byte first; the last word ends the command. -/
theorem test_r16Data : check (exec (.r16Data .w16) (reading 0)) (fun t => t.drive.pio.index == 1 &&
      t.drive.byteCount == 2 && t.events == [.readValue .w16 0x2211]) = true ∧
    check (exec (.r16Data .w16) (reading 1)) (fun t => t.drive.state == .waitCommand &&
      t.events == [.raise .commandComplete, .readValue .w16 0x4433]) = true := by decide

/-- V10, V12. -/
theorem test_r16Data_ignored : check (exec (.r16Data .w16) (s0 .gdRom)) (fun t => t.drive.byteCount == 0 &&
      t.events == [.ignored, .readValue .w16 0]) = true ∧
    exec (.w16Data .w8 0x12) (s0 .gdRom) = .refused .badAccessWidth := ⟨by decide, rfl⟩

/-- K12: SET_MODE's one word, at offset 8. -/
def receiving : State := { s0 .gdRom with
  drive.state := .pioGetData, drive.pio := ⟨[], 0, 1, .processSetMode⟩, drive.setModeOffset := 8, drive.byteCount := 2,
  drive.status := ⟨false, false, true, false, false⟩ }

/-- K12, T1's second word. -/
theorem test_w16Data : check (exec (.w16Data .w16 0xBBAA) receiving) (fun t => t.drive.state == .waitCommand &&
      t.drive.modeBlock.take 12 == [0, 0, 0, 0, 0, 0xB4, 0x19, 0, 0xAA, 0xBB, 0x53, 0x45]) = true ∧
    check (exec (.w16Data .w16 0x0114) (nextOf (exec (.w8Command .w8 0xA0) (s0 .gdRom)) (s0 .gdRom))) (fun t =>
      t.drive.packet.index == 1 && t.drive.packet.bytes.take 2 == [0x14, 0x01]) = true := by decide

/-- V4, V5. -/
theorem test_features : check (exec (.w8Features .w8 0xA5) (s0 .gdRom)) (fun t => t.drive.features == 0xA5) = true ∧
    check (exec (.w8Features .w16 0x1234) (s0 .gdRom)) (fun t => t.drive.features == 0x34) = true := by decide

/-- P2, step 9: sense key 5 and abort read as 0x54. -/
theorem test_r8Error : check (exec (.r8Error .w8) { s0 .gdRom with drive.sense.key := 5, drive.error.abort := true })
    (fun t => t.events == [.readValue .w8 0x54]) = true := by decide

/-- V6. -/
theorem test_sectorCount : check (exec (.w8SectorCount .w8 0x22) (s0 .gdRom)) (fun t => t.drive.sectorCount == 0x22) = true ∧
    check (exec (.r8SectorCount .w8) { s0 .gdRom with drive.sectorCount := 0x22 }) (fun t =>
      t.events == [.readValue .w8 0x22]) = true := by decide

/-- V8. -/
theorem test_sectorNumber : check (exec (.w8SectorNumber .w8 0x30) (s0 .gdRom)) (fun t =>
      t.drive.sectorNumber == 0x30) = true ∧
    check (exec (.r8SectorNumber .w8) (s0 .gdRom)) (fun t => t.events == [.readValue .w8 0x82]) = true := by decide

/-- V7, V17. -/
theorem test_byteCount_writes : check (exec (.w8ByteCountLow .w8 0x02) { s0 .gdRom with drive.byteCount := 0x0198 })
      (fun t => t.drive.byteCount == 0x0102) = true ∧
    check (exec (.w8ByteCountHigh .w8 0x12) { s0 .gdRom with drive.byteCount := 0x0034 })
      (fun t => t.drive.byteCount == 0x1234) = true := by decide

/-- V7. -/
theorem test_byteCount_reads : check (exec (.r8ByteCountLow .w8) { s0 .gdRom with drive.byteCount := 0x1234 })
      (fun t => t.events == [.readValue .w8 0x34]) = true ∧
    check (exec (.r8ByteCountHigh .w8) { s0 .gdRom with drive.byteCount := 0x1234 })
      (fun t => t.events == [.readValue .w8 0x12]) = true := by decide

/-- V9: while gated a read gives 0 and a Features write is dropped; DriveSelect itself is written. -/
theorem test_driveSelect : check (exec (.r8DriveSelect .w8) { s0 .gdRom with drive.driveSelect := 0x10 })
      (fun t => t.events == [.ignored, .readValue .w8 0]) = true ∧
    check (exec (.w8DriveSelect .w8 0x00) { s0 .gdRom with drive.driveSelect := 0x10 })
      (fun t => t.drive.driveSelect == 0) = true := by decide

/-- V9. -/
theorem test_gated_writes : check (exec (.w8Features .w8 1) { s0 .gdRom with drive.driveSelect := 0x10 })
      (fun t => t.drive.features == 0) = true ∧
    check (exec (.w8Command .w8 0) { s0 .gdRom with drive.driveSelect := 0x10 })
      (fun t => t.drive.state == .waitCommand && t.events == [.ignored]) = true := by decide

/-- Under the mask 0xE9 a status byte is what the spec defines whatever the draws (V1, V2, P2). -/
theorem test_statusByte (d : Byte) : statusByte ⟨false, true, false, false, false⟩ d &&& 0xE9 = 0x40 ∧
    statusByte ⟨false, false, true, true, false⟩ d &&& 0xE9 = 0x09 ∧
    statusByte ⟨true, false, false, false, true⟩ d &&& 0xE9 = 0xA0 := by
  revert d; decide

/-- V1, V2: a Status read cancels both lines, an AltStatus read does nothing. -/
theorem test_status_reads : check (exec (.r8Status .w8) { s0 .gdRom with irq := ⟨true, true⟩ }) (fun t =>
      t.irq == ⟨false, false⟩ && t.events.take 2 == [.cancel .commandComplete, .cancel .dmaComplete]) = true ∧
    check (exec (.r8AltStatus .w8) { s0 .gdRom with irq := ⟨true, true⟩ }) (fun t =>
      t.irq == ⟨true, true⟩ && t.events.length == 1) = true := by decide

/-- V6: bit 0 of Interrupt Reason whatever the draw. -/
theorem test_interruptReason (d : Byte) : ireasonByte true d &&& 0x01 = 1 ∧ ireasonByte false d &&& 0x01 = 0 := by
  revert d; decide

/-- V16. -/
theorem test_command_fault : exec (.w8Command .w8 0x00) (at' .waitPacket (s0 .gdRom)) = .fault .unmappedTransition :=
  rfl

/-- V14. -/
theorem test_deviceControl : check (exec (.w8DeviceControl .w8 0x04) (s0 .gdRom)) (fun t =>
    t.drive == (s0 .gdRom).drive && t.events == [.ignored]) = true := by decide

/-! ### DMA, audio, environment (file 95, 2.6, 2.7, 2.9) -/

/-- A DMA read with six bytes `AA` to `AF` left in the cache and none to be read, the engine running. -/
def streaming (length : BitVec 32) : State := { s0 .gdRom with
  drive.state := .readSectorDma, drive.status := ⟨true, false, false, false, false⟩, drive.ireasonCod := true
  drive.cache := ⟨[0, 0xAA, 0xAB, 0xAC, 0xAD, 0xAE, 0xAF], 1, 6⟩, drive.dmaScheduled := true
  dma := { addr := 0x0C010000, length := length, transferred := 0, cursor := 0x0C010000, direction := 1, start := true,
           enable := true } }

/-- D2: a burst shorter than the data leaves the device in `ReadSectorDma`. -/
theorem test_tickDma_burst : check (exec .tickDma (streaming 4)) (fun t => t.drive.state == .readSectorDma &&
    !t.dma.start && !t.drive.dmaScheduled && t.drive.cache.avail == 2 && memRead t.hostMem 0x0C010003 == some 0xAD &&
    t.events == [.hostMemWrite 0x0C010000 [0xAA, 0xAB, 0xAC, 0xAD], .raise .dmaComplete]) = true := by decide

/-- D4: a burst longer than the data completes the command and raises no `DmaComplete`. -/
theorem test_tickDma_end : check (exec .tickDma (streaming 8)) (fun t => t.drive.state == .waitCommand &&
    t.dma.start && !t.drive.dmaScheduled && t.dma.transferred == 6 &&
    t.events == [.hostMemWrite 0x0C010000 [0xAA, 0xAB, 0xAC, 0xAD, 0xAE, 0xAF], .raise .commandComplete]) = true := by
  decide

/-- D6, D7. -/
theorem test_dmaStart : check (exec .dmaStart { streaming 8 with dma.transferred := 3 }) (fun t =>
      t.dma.transferred == 3 && t.events == [.ignored]) = true ∧
    check (exec .dmaStart { s0 .gdRom with dma.enable := true, dma.addr := 0x0C010000, dma.transferred := 3 }) (fun t =>
      t.dma.start && t.drive.dmaScheduled && t.dma.transferred == 0 && t.dma.cursor == 0x0C010000) = true := by decide

/-- D3. -/
theorem test_dmaEnable : check (exec (.dmaEnable false) (streaming 8)) (fun t => !t.dma.start && !t.dma.enable &&
      t.drive.dmaScheduled && t.events == []) = true ∧
    check (exec .tickDma (nextOf (exec (.dmaEnable false) (streaming 8)) (s0 .gdRom))) (fun t =>
      !t.drive.dmaScheduled && t.drive.cache.avail == 6) = true := by decide

/-- C1's third tick, C2's third tick. -/
theorem test_tickAudio : check (exec .tickAudio { s0 .gdRom with drive.cdda := ⟨.playing, 102, 100, 103, 0⟩ }) (fun t =>
      t.drive.cdda == ⟨.terminated, 103, 100, 103, 0⟩ && t.drive.sectorNumber == 0x81) = true ∧
    check (exec .tickAudio { s0 .gdRom with drive.cdda := ⟨.playing, 102, 100, 103, 1⟩ }) (fun t =>
      t.drive.cdda == ⟨.playing, 100, 100, 103, 0⟩) = true := by decide

/-- C3, R282. -/
theorem test_tickAudio_infinite :
    check (exec .tickAudio { s0 .gdRom with drive.cdda := ⟨.playing, 102, 100, 103, 15⟩ }) (fun t =>
      t.drive.cdda == ⟨.playing, 100, 100, 103, 15⟩) = true ∧
    check (exec .tickAudio (s0 .gdRom)) (fun t => t.drive == (s0 .gdRom).drive) = true := by decide

/-- P6, step 5; A12 for a swap that is not pending. -/
theorem test_tickSwap : check (exec .tickSwap { s0 .dataCd with
      drive.discSwapPending := true, drive.sectorNumber := 0x10, drive.sense := ⟨2, 4, 1⟩ }) (fun t =>
      t.drive.sectorNumber == 0x12 && t.drive.sense == ⟨6, 0x28, 0⟩ && !t.drive.discSwapPending && t.events == []) = true ∧
    exec .tickSwap (s0 .gdRom) = .next (s0 .gdRom) := ⟨by decide, rfl⟩

/-- Z1: the reset of a device in the middle of a transfer. -/
theorem test_hardReset : check (exec .eventHardReset (reading 1)) (fun t => t.drive == resetDrive tcfg .gdRom &&
    t.events == []) = true := by decide

/-- Z2, Z3. -/
theorem test_tray : check (exec (.eventTrayOpen ⟨0, .trayOpen, []⟩) (s0 .gdRom)) (fun t => t.drive.sectorNumber == 0x06 &&
      errorByte t.drive.sense.key t.drive.error == 0x60 && t.events == []) = true ∧
    check (exec (.eventTrayClose ⟨1, .noDisc, []⟩) (s0 .gdRom)) (fun t => t.drive.sectorNumber == 0x07 &&
      t.drive.sense == ⟨6, 0x28, 0⟩ && t.media.id == 1) = true := by decide

/-- P6, step 1; Z4. -/
theorem test_swapBegin : check (exec (.eventSwapBegin ⟨1, .dataCd, []⟩) (s0 .gdRom)) (fun t =>
      t.drive.sectorNumber == 0x10 && t.drive.discSwapPending && t.drive.sense == ⟨0, 0, 0⟩) = true ∧
    check (exec (.eventSwapBegin ⟨1, .gdRom, []⟩) (streaming 8)) (fun t => t.dma.start && !t.drive.dmaScheduled &&
      t.drive.state == .waitCommand) = true := by decide

/-! ### Witnesses: states and operands that meet the hypotheses of each statement -/

/-- The configuration of the tests meets R5. -/
theorem test_witness_cfg : tcfg.Wf := by decide

/-- The values of R5's first table in the reference configuration. -/
theorem test_document_values : Cfg.ref.packetBytes = 12 ∧ Cfg.ref.sectorData = 2048 ∧ Cfg.ref.sectorRaw = 2340 ∧
    Cfg.ref.sectorAudio = 2352 ∧ Cfg.ref.pioBurstSectors = 27 ∧ Cfg.ref.cacheSectors = 32 ∧
    Cfg.ref.dmaChunkBytes = 10240 ∧ Cfg.ref.tocBytes = 408 ∧ Cfg.ref.statusRecordBytes = 10 ∧
    Cfg.ref.modeWritableBytes = 10 ∧ Cfg.ref.repeatInfinite = 15 ∧ Cfg.ref.skNoSense = 0 ∧ Cfg.ref.skNotReady = 2 ∧
    Cfg.ref.skUnitAttention = 6 ∧ Cfg.ref.skAborted = 0xB := by decide

/-- R101: the codes of the seven disc statuses and the eight disc types. -/
theorem test_disc_codes : [DiscStatus.busy, .paused, .standby, .playing, .seeking, .open, .nodisc].map
      (discStatusCode Cfg.ref) = [0, 1, 2, 3, 4, 6, 7] ∧
    [DiscType.audioCd, .dataCd, .cdXa, .cdExtra, .cdi, .gdRom, .noDisc, .trayOpen].map (discFormatCode Cfg.ref) =
      [0, 1, 2, 3, 4, 8, 0, 0] := by decide

/-- R102. -/
theorem test_audio_codes : [AudioStatus.playing, .paused, .terminated, .noInfo].map (audioStatusCode Cfg.ref) =
    [0x11, 0x12, 0x13, 0x15] := by decide

/-- R5, R127: another configuration, whose PIO window is 24 sectors (file 93, U15), reads 24 of 25 first. -/
theorem test_pio_burst_24 : check (sixth [0x30, 0x20, 0, 0xB0, 0x5E, 0, 0, 0, 0, 0, 25] { s0 .gdRom with
      cfg := { tcfg with pioBurstSectors := 24, sectorData := 2 } }) (fun t => t.drive.rr.remaining == 1 &&
      t.drive.pio.size == 24 && t.drive.pio.nextState == .readSectorPio) = true := by decide

theorem test_witness_DecodeEncode : Cfg.ref.Wf ∧ WellFormed Cfg.ref (.cdSeek 4 ⟨1, 2, 3⟩) = true ∧
    encode Cfg.ref (.cdSeek 4 ⟨1, 2, 3⟩) = some (.packet [0x21, 4, 1, 2, 3, 0, 0, 0, 0, 0, 0, 0]) := by decide

theorem test_witness_DecodeWellFormed : Cfg.ref.Wf ∧
    (List.replicate 12 (0x40 : Byte)).length = Cfg.ref.packetBytes := by decide

/-- `off` at the record's end, a slice that is cut, and the corner of log entry 31: past the end, with a length of 0. -/
theorem test_witness_SliceIsContiguous : (10 ≥ ([0, 1, 2, 3, 4, 5, 6, 7, 8, 9] : List Byte).length) ∧
    0 < (sliceOf [7, 8, 9] 2 4).length ∧ (sliceOf [7, 8, 9] 2 4).length ≠ 4 ∧
    ¬ 4 + 0 ≤ ([7, 8, 9] : List Byte).length ∧ (sliceOf [7, 8, 9] 4 0).length = 0 := by decide

/-- A pair of each kind. -/
theorem test_witness_TransitionTable : mapped .pioSendData .readSectorPio = true ∧ mapped .pioGetData .pioEnd = false := by
  decide

/-- Each state that `WaitCommand`, `ProcessPacketDone` and `PioEnd` may be entered from. -/
theorem test_witness_CommandEndEntries (p : Proto) : (at' p (s0 .gdRom)).drive.state = p := rfl

theorem test_witness_NopResult : (inAta (s0 .gdRom)).drive.state = .processAtaCommand := rfl
theorem test_witness_SoftResetResult : (inAta (s0 .noDisc)).drive.state = .processAtaCommand := rfl
theorem test_witness_PacketResult : (inAta (s0 .trayOpen)).drive.state = .processAtaCommand := rfl
theorem test_witness_IdentifyDeviceResult : (inAta (s0 .gdRom)).drive.state = .processAtaCommand ∧
    (inAta (s0 .gdRom)).cfg.identifyBlock.length = (inAta (s0 .gdRom)).cfg.identifyBytes := by decide
theorem test_witness_SynchronousResults : (inAta { s0 .gdRom with drive.sense.key := 6 }).drive.state =
    .processAtaCommand := rfl
theorem test_witness_AtaErrorResult : (inAta { s0 .gdRom with drive.discSwapPending := true }).drive.state =
    .processAtaCommand := rfl

theorem test_witness_TestUnitResult : (inPkt { s0 .gdRom with drive.sectorNumber := 0x80 }).drive.state =
    .processPacketCommand := rfl
theorem test_witness_OpenScanResult : (inPkt (s0 .trayOpen)).drive.state = .processPacketCommand := rfl
theorem test_witness_ReqStatModeResult : (inPkt (s0 .cdi)).drive.state = .processPacketCommand := rfl

/-- Both branches: two bytes at offset 8, none at offset 10. -/
theorem test_witness_SetModeResult : (inPkt (s0 .gdRom)).drive.state = .processPacketCommand ∧
    2 ≤ min (6 : Byte).toNat (tcfg.modeWritableBytes - min (8 : Byte).toNat tcfg.modeWritableBytes) ∧
    ¬ 2 ≤ min (6 : Byte).toNat (tcfg.modeWritableBytes - min (10 : Byte).toNat tcfg.modeWritableBytes) := by decide

theorem test_witness_ReqErrorResult : (inPkt (s0 .gdRom)).drive.state = .processPacketCommand := rfl
theorem test_witness_TocSessionResult : (inPkt (s0 .cdXa)).drive.state = .processPacketCommand := rfl
theorem test_witness_SubcodeResult : (inPkt (s0 .audioCd)).drive.state = .processPacketCommand := rfl
theorem test_witness_PacketErrorResult : (inPkt (s0 .noDisc)).drive.state = .processPacketCommand := rfl

/-- The counts 0, 27 and 28 stand on the statement's boundaries. -/
theorem test_witness_CdReadPioResult : (inPkt (s0 .gdRom)).cfg.Wf ∧ (inPkt (s0 .gdRom)).drive.state = .processPacketCommand ∧
    (inPkt (s0 .gdRom)).drive.features.getLsbD 0 = false := by decide
theorem test_witness_CdReadDmaResult : (inPkt { s0 .gdRom with drive.features := 1 }).drive.state =
    .processPacketCommand ∧ (inPkt { s0 .gdRom with drive.features := 1 }).drive.features.getLsbD 0 = true := by decide

theorem test_witness_CdPlayResult : (inPkt { s0 .gdRom with drive.cdda.currentFad := 1 }).drive.state =
    .processPacketCommand := rfl
theorem test_witness_CdSeekResult : (inPkt (s0 .audioCd)).drive.state = .processPacketCommand := rfl

/-- The two widths a port takes, with the gate open. -/
theorem test_witness_gate_open : Width.w8 ≠ .w32 ∧ Width.w16 ≠ .w32 ∧ (s0 .gdRom).drive.driveSelect.getLsbD 4 = false := by
  decide
theorem test_witness_FeaturesWrite : Width.w16 ≠ .w32 ∧ (s0 .gdRom).drive.driveSelect.getLsbD 4 = false := by decide
theorem test_witness_RegisterWrites : Width.w8 ≠ .w32 ∧ (s0 .gdRom).drive.driveSelect.getLsbD 4 = false := by decide
theorem test_witness_RegisterReads : Width.w16 ≠ .w32 ∧ (s0 .gdRom).drive.driveSelect.getLsbD 4 = false := by decide
theorem test_witness_StatusReads : Width.w8 ≠ .w32 ∧ (reading 1).drive.driveSelect.getLsbD 4 = false := by decide
theorem test_witness_DriveSelectAccess : Width.w8 ≠ .w32 ∧
    ({ s0 .gdRom with drive.driveSelect := 0xEF } : State).drive.driveSelect.getLsbD 4 = false := by decide
theorem test_witness_DeviceControlWrite : Width.w16 ≠ .w32 := by decide

/-- One state for each of the five cases of a Data read. -/
theorem test_witness_DataReadResult : (reading 1).cfg.Wf ∧
    ((reading 0).drive.state = .pioSendData ∧ (reading 0).drive.pio.index + 1 < (reading 0).drive.pio.size) ∧
    ((reading 1).drive.pio.index + 1 = (reading 1).drive.pio.size ∧ (reading 1).drive.pio.nextState = .pioEnd) ∧
    (∀ n : BitVec 32, ({ reading 1 with drive.pio.nextState := .readSectorPio, drive.rr.remaining := n } :
        State).drive.pio.nextState = .readSectorPio) ∧ (27 : BitVec 32) ≠ 0 ∧ (28 : BitVec 32) ≠ 0 ∧
    (reading 2).drive.pio.size ≤ (reading 2).drive.pio.index ∧ (s0 .gdRom).drive.state ≠ .pioSendData ∧
    (reading 0).drive.driveSelect.getLsbD 4 = false := by
  refine ⟨by decide, by decide, by decide, fun _ => rfl, by decide, by decide, by decide, by decide, by decide⟩

/-- A packet being received, a SET_MODE being received (the last word, at the end of the ten bytes), neither. -/
theorem test_witness_DataWriteResult :
    (let s : State := { s0 .gdRom with drive.state := .waitPacket, drive.packet.index := 4 }
     s.drive.state = .waitPacket ∧ s.drive.packet.index + 1 < s.cfg.packetBytes / 2 ∧
       s.drive.packet.bytes.length = s.cfg.packetBytes) ∧
    (receiving.drive.state = .pioGetData ∧ receiving.drive.pio.index + 1 = receiving.drive.pio.size ∧
      receiving.drive.pio.nextState = .processSetMode ∧
      receiving.drive.setModeOffset + 2 * receiving.drive.pio.size ≤ receiving.drive.modeBlock.length) ∧
    (let s : State := { receiving with drive.pio.size := 2 }
     s.drive.state = .pioGetData ∧ s.drive.pio.index + 1 < s.drive.pio.size) ∧
    (s0 .gdRom).drive.state ≠ .waitPacket ∧ (s0 .gdRom).drive.state ≠ .pioGetData ∧
    receiving.drive.driveSelect.getLsbD 4 = false := by decide

/-- A device that takes a command, and one that does not. -/
theorem test_witness_CommandWriteRuns : Width.w8 ≠ .w32 ∧ (s0 .gdRom).drive.driveSelect.getLsbD 4 = false ∧
    (s0 .gdRom).drive.state = .waitCommand ∧ (reading 0).drive.state ≠ .waitCommand := by decide

theorem test_witness_SixthWordRuns :
    let s : State := { s0 .noDisc with drive.state := .waitPacket, drive.packet.index := 5 }
    s.cfg.Wf ∧ s.drive.driveSelect.getLsbD 4 = false ∧ s.drive.state = .waitPacket ∧
      s.drive.packet.index + 1 = s.cfg.packetBytes / 2 ∧ s.drive.packet.bytes.length = s.cfg.packetBytes := by decide

theorem test_witness_CommandWriteCompletes : Width.w8 ≠ .w32 ∧ (s0 .gdRom).drive.driveSelect.getLsbD 4 = false ∧
    (s0 .gdRom).drive.state = .waitCommand ∧ (s0 .gdRom).cfg.identifyBlock.length = (s0 .gdRom).cfg.identifyBytes ∧
    2 ≤ (s0 .gdRom).cfg.identifyBytes := by decide

theorem test_witness_SlaveGate :
    ({ s0 .gdRom with drive.driveSelect := 0x10 } : State).drive.driveSelect.getLsbD 4 = true ∧ Width.w8 ≠ .w32 := by decide

theorem test_witness_BadWidth : Width.w8 ≠ .w16 ∧ Width.w32 ≠ .w16 := by decide

theorem test_witness_DmaEnableResult : ∃ t, exec (.dmaEnable false) (streaming 8) = .next t := ⟨_, rfl⟩

/-- Not scheduled; scheduled with each of the four guards. -/
theorem test_witness_DmaTickStops : (s0 .gdRom).drive.dmaScheduled = false ∧ (streaming 8).drive.dmaScheduled = true ∧
    ({ streaming 8 with dma.start := false } : State).dma.start = false ∧
    ({ streaming 8 with dma.enable := false } : State).dma.enable = false ∧
    (at' .waitCommand (streaming 8)).drive.state ≠ .readSectorDma ∧
    ({ streaming 8 with dma.direction := 0 } : State).dma.direction ≠ (streaming 8).cfg.dmaToHost := by decide

theorem test_witness_DmaTickMoves : (streaming 8).drive.dmaScheduled = true ∧ (streaming 8).dma.start = true ∧
    (streaming 8).dma.enable = true ∧ (streaming 8).drive.state = .readSectorDma ∧
    (streaming 8).dma.direction = (streaming 8).cfg.dmaToHost := by decide

/-- The engine running with an empty cache and 33 sectors to read, of two bytes each. -/
def refilling : State := { streaming 8 with
  cfg := { tcfg with sectorData := 2 }, drive.cache := ⟨[], 0, 0⟩, drive.rr := ⟨0xB05E, 33, .data⟩ }

/-- The refill branch of `DmaTickMoves`: 32 sectors are read, 8 bytes of them stored, one sector is left (R251, R254). -/
theorem test_witness_DmaTickMoves_refill : (refilling.drive.dmaScheduled = true ∧ refilling.dma.start = true ∧
      refilling.dma.enable = true ∧ refilling.drive.state = .readSectorDma ∧
      refilling.dma.direction = refilling.cfg.dmaToHost) ∧
    (refilling.drive.cache.avail = 0 ∧ refilling.drive.rr.remaining ≠ 0) ∧
    check (exec .tickDma refilling) (fun t => t.draws == 1 && t.drive.rr == ⟨0xB07E, 1, .data⟩ &&
      t.drive.cache.rd == 8 && t.drive.cache.avail == 56 && t.drive.state == .readSectorDma) = true := by decide

theorem test_witness_AudioSilence : (s0 .gdRom).drive.cdda.status ≠ .playing := by decide

/-- A player in the middle of a pass. -/
def playing (rep : BitVec 4) : State := { s0 .gdRom with drive.cdda := ⟨.playing, 100, 100, 103, rep⟩ }

theorem test_witness_AudioPlays : (playing 0).drive.cdda.status = .playing := rfl

/-- A swap pending, and none. -/
theorem test_witness_SwapDone : (s0 .gdRom).drive.discSwapPending = false ∧
    ({ s0 .gdRom with drive.discSwapPending := true } : State).drive.discSwapPending = true := by decide

/-- One state for each clause: an operation, no input, a write of the DMA registers, and the two unmapped accesses. -/
theorem test_witness_StepRunsDecoded : decode Cfg.ref (.bus .tickDma) = .ok .tickDma ∧
    (s0 .gdRom).pending = [] ∧
    ({ s0 .gdRom with pending := [.dmaSet 1 2 3] } : State).pending = .dmaSet 1 2 3 :: [] ∧
    lookupPort tcfg 0x5F7081 .read = none ∧ lookupPort tcfg 0x5F70A0 .write = none ∧ Width.w8 ≠ .w32 := by
  refine ⟨rfl, rfl, rfl, ?_, ?_, ?_⟩ <;> decide

/-- A state of the invariant in each stable state. -/
theorem test_inv_waitCommand : (s0 .dataCd).Inv :=
  ⟨by decide, by decide, rfl, ⟨rfl, rfl, rfl⟩, by decide, by decide, by decide, by decide, by decide⟩
theorem test_inv_waitPacket : (nextOf (exec (.w8Command .w8 0xA0) (s0 .gdRom)) (s0 .gdRom)).Inv :=
  ⟨by decide, by decide, rfl, ⟨rfl, rfl, rfl, rfl⟩, by decide, by decide, by decide, by decide, by decide⟩
theorem test_inv_pioSendData : (reading 1).Inv :=
  ⟨by decide, by decide, rfl, ⟨rfl, rfl, rfl, rfl⟩, by decide, by decide, by decide, by decide, by decide⟩
theorem test_inv_pioGetData : receiving.Inv :=
  ⟨by decide, by decide, rfl, ⟨rfl, rfl, rfl, rfl⟩, by decide, by decide, by decide, by decide, by decide⟩
theorem test_inv_readSectorDma : (streaming 6).Inv :=
  ⟨by decide, by decide, rfl, ⟨rfl, rfl, rfl, rfl⟩, by decide, by decide, by decide, by decide, by decide⟩

/-- The state of the device does not depend on what is pending: the invariant holds whatever the inputs. -/
theorem test_inv_pending (s : State) (p : List Input) (h : s.Inv) : ({ s with pending := p } : State).Inv := h

theorem test_witness_StepKeepsInv : ({ reading 1 with pending := [.read .w16 0x5F7080] } : State).Inv ∧
    ∃ t, step { reading 1 with pending := [.read .w16 0x5F7080] } = .next t := ⟨test_inv_pioSendData, _, rfl⟩

theorem test_witness_FaultOnlyByCommandWrite : ({ reading 1 with pending := [.write .w8 0x5F709C 0] } : State).Inv ∧
    step { reading 1 with pending := [.write .w8 0x5F709C 0] } = .fault .unmappedTransition := ⟨test_inv_pioSendData, rfl⟩

theorem test_witness_RefusalOnlyByWidth :
    step { s0 .gdRom with pending := [.read .w32 0x5F709C] } = .refused .badAccessWidth := rfl

/-- A Status read, and a DMA tick that raises `DmaComplete`. -/
theorem test_witness_InterruptLines : lookupPort tcfg 0x5F709C .read = some .status ∧
    (∃ t, step { s0 .gdRom with pending := [.read .w8 0x5F709C] } = .next t ∧ Event.cancel .dmaComplete ∈ t.events) ∧
    ∃ t, step { streaming 6 with pending := [.tickDma] } = .next t ∧ Event.raise .dmaComplete ∈ t.events :=
  ⟨by decide, ⟨_, rfl, by decide⟩, ⟨_, rfl, by decide⟩⟩

/-- `ChangedOnlyBy`, host memory: the tick stores six bytes, the last at `0x0C010005`. -/
theorem test_witness_ChangedOnlyBy : ({ streaming 6 with pending := [.tickDma] } : State).Inv ∧
    ∃ t, step { streaming 6 with pending := [.tickDma] } = .next t ∧
      memRead t.hostMem 0x0C010005 ≠ memRead (streaming 6).hostMem 0x0C010005 ∧
      dmaCount (dmaRefill (streaming 6)) = 6 := ⟨test_inv_readSectorDma, _, rfl, by decide, by decide⟩

/-- `ChangedOnlyBy`, the backend and the disc type: a tray event; the swap-done tick. -/
theorem test_witness_ChangedOnlyBy_disc :
    (∃ t, step { s0 .dataCd with pending := [.trayClose ⟨1, .noDisc, []⟩] } = .next t ∧
      t.media ≠ (s0 .dataCd).media ∧ t.drive.discType ≠ (s0 .dataCd).drive.discType) ∧
    ({ s0 .dataCd with drive.discSwapPending := true, drive.discType := .noDisc } : State).Inv ∧
    ∃ t, step { s0 .dataCd with
        drive.discSwapPending := true, drive.discType := .noDisc, pending := [.tickSwap] } = .next t ∧
      t.drive.discType = .dataCd :=
  ⟨⟨_, rfl, by decide, by decide⟩,
   ⟨by decide, by decide, rfl, ⟨rfl, rfl, rfl⟩, by decide, by decide, by decide, by decide, fun _ => rfl⟩, _, rfl, rfl⟩

/-- A device in `WaitCommand` whose Error flags and mode block are not those of a reset. -/
def dirty : State := { s0 .dataCd with
  drive.error := ⟨true, true, false, true⟩, drive.modeBlock := List.replicate 32 0xFF }

theorem test_inv_dirty : dirty.Inv :=
  ⟨by decide, by decide, rfl, ⟨rfl, rfl, rfl⟩, by decide, by decide, by decide, by decide, by decide⟩

/-- `ChangedOnlyBy`, the Error flags: SOFT_RESET, and a hard reset, which changes the mode block too. -/
theorem test_witness_ChangedOnlyBy_reset :
    (∃ t, step { dirty with pending := [.write .w8 0x5F709C 0x08] } = .next t ∧
      t.drive.error.ili ≠ dirty.drive.error.ili ∧ t.drive.modeBlock = dirty.drive.modeBlock) ∧
    ∃ t, step { dirty with pending := [.hardReset] } = .next t ∧ t.drive.error.mcr ≠ dirty.drive.error.mcr ∧
      t.drive.modeBlock.drop 10 ≠ dirty.drive.modeBlock.drop 10 :=
  ⟨⟨_, rfl, by decide, by decide⟩, ⟨_, rfl, by decide, by decide⟩⟩

/-- `ChangedOnlyBy`, the mode block: the last word of a SET_MODE. -/
theorem test_witness_ChangedOnlyBy_mode : ∃ t,
    step { receiving with pending := [.write .w16 0x5F7080 0xBBAA] } = .next t ∧
      t.drive.modeBlock ≠ receiving.drive.modeBlock := ⟨_, rfl, by decide⟩

/-- A store that wraps at the end of the address space. -/
theorem test_witness_HostMemStores : Memory.wf [(7, 1)] ∧ ([1, 2] : List Byte).length ≤ 4294967296 ∧
    memRead (memWriteBytes [(7, 1)] 0xFFFFFFFF [5, 6]) 0 = some 6 := by decide

theorem test_witness_ReqErrorTwice :
    let s : State := inPkt { s0 .gdRom with drive.sense := ⟨5, 0x20, 0⟩ }
    s.drive.state = .processPacketCommand ∧ ∃ t, exec (.reqError 10) s = .next t := ⟨rfl, _, rfl⟩

theorem test_witness_PioDrain : (reading 0).drive.driveSelect.getLsbD 4 = false ∧
    (reading 0).drive.state = .pioSendData ∧ (reading 0).drive.pio.nextState = .pioEnd ∧
    (reading 0).drive.pio.index < (reading 0).drive.pio.size := by decide

/-- A play with repeat count 1, one with the infinite repeat. -/
theorem test_witness_AudioPasses : ((playing 15).drive.cdda.status = .playing ∧
      (playing 15).drive.cdda.repeatCount = (playing 15).cfg.repeatInfinite ∧ (playing 15).cfg.repeatInfinite ≠ 0) ∧
    (playing 1).drive.cdda.status = .playing ∧ (playing 1).drive.cdda.currentFad = (playing 1).drive.cdda.startFad ∧
    (playing 1).drive.cdda.startFad.toNat < (playing 1).drive.cdda.endFad.toNat ∧
    (playing 1).drive.cdda.repeatCount.toNat < (playing 1).cfg.repeatInfinite.toNat ∧
    2 = (playing 1).drive.cdda.repeatCount.toNat + 1 := by decide

/-- A burst of exactly what is left; and what is left may be nothing. -/
theorem test_witness_DmaDelivers : (streaming 6).Inv ∧ (streaming 6).drive.state = .readSectorDma ∧
    (streaming 6).drive.dmaScheduled = true ∧ (streaming 6).dma.start = true ∧ (streaming 6).dma.enable = true ∧
    (streaming 6).dma.direction = (streaming 6).cfg.dmaToHost ∧
    (streaming 6).dma.transferred.toNat ≤ (streaming 6).dma.length.toNat ∧
    outstanding (streaming 6) = 6 ∧
    outstanding (streaming 6) ≤ (streaming 6).dma.length.toNat - (streaming 6).dma.transferred.toNat ∧
    outstanding { streaming 6 with drive.cache := ⟨[], 0, 0⟩ } = 0 := by
  refine ⟨test_inv_readSectorDma, ?_, ?_, ?_, ?_, ?_, ?_, ?_, ?_, ?_⟩ <;> decide

/-- The statement's clauses on stores are not of the empty run: D1's six bytes go to the cursor and on. -/
theorem test_storesFrom : check (exec .tickDma (streaming 6)) (fun t => storesFrom 0x0C010000 t.events &&
    storedBytes t.events == [0xAA, 0xAB, 0xAC, 0xAD, 0xAE, 0xAF]) = true ∧
    storesFrom 4 [.hostMemWrite 4 [1, 2], .hostMemWrite 7 [3]] = false := by decide

end Sys2Proof.Slice0Tests
end

section
/-! PROOFS. The host port accesses (R150 to R164). -/

namespace Sys2Proof.Machine

/-- The Features write runs its port rule (R154). -/
theorem exec_w8Features (w : Width) (v : BitVec 32) (s : State) :
    exec (.w8Features w v) s = execW8Features w v s := rfl

/-- Settles O26: past the width check and the gate, the write hands bits 7:0 to a port rule that only stores them. -/
theorem featuresWrite : Obligations.FeaturesWrite := by
  intro s w v hwidth hgate
  calc exec (.w8Features w v) s
      = portWrite w v s fun b t => .next { t with drive.features := b } := exec_w8Features w v s
    _ = .next { s with drive.features := v.setWidth 8 } := portWrite_next hwidth hgate

end Sys2Proof.Machine
end

section
/-! PROOFS. The ATA commands NOP and PACKET (R182, R185). -/

namespace Sys2Proof.Machine

/-- NOP runs its command rule (R182). -/
theorem exec_nop (s : State) : exec .nop s = execNop s := rfl

/-- PACKET runs its command rule (R185). -/
theorem exec_packet (s : State) : exec .packet s = execPacket s := rfl

/-- Settles O7: an aborted completion sets the check bit whatever the sense key, so the policy of R181 plays no part. -/
theorem nopResult : Obligations.NopResult := by
  intro s hstate
  calc exec .nop s
      = ataComplete true s := exec_nop s
    _ = .next (ataDone true (true || !ataHarmless s.cfg s.drive.sense.key) s) := ataComplete_next hstate
    _ = .next (ataDone true true s) := by rw [Bool.true_or]

/-- Settles O9: PACKET is the `WaitPacket` entry alone, and R132 lets `ProcessAtaCommand` enter it. -/
theorem packetResult : Obligations.PacketResult := by
  intro s hstate
  have hmapped : mapped s.drive.state .waitPacket = true := by rw [hstate]; rfl
  calc exec .packet s
      = enterWaitPacket s := exec_packet s
    _ = _ := enterWaitPacket_next hmapped

end Sys2Proof.Machine
end

section
/-! PROOFS. The packet commands CD_OPEN and CD_SCAN (R208, R209). -/

namespace Sys2Proof.Machine

/-- CD_OPEN runs its command rule (R208). -/
theorem exec_cdOpen (s : State) : exec .cdOpen s = execCdOpen s := rfl

/-- CD_SCAN runs its command rule (R209). -/
theorem exec_cdScan (s : State) : exec .cdScan s = execCdScan s := rfl

/-- R132 lets a packet command that is running end in `ProcessPacketDone`. -/
theorem mapped_processPacketDone {s : State} (hstate : s.drive.state = .processPacketCommand) :
    mapped s.drive.state .processPacketDone = true := by rw [hstate]; rfl

/-- Settles O14: CD_OPEN is the `ProcessPacketDone` entry alone, which goes on to `WaitCommand`; CD_SCAN has the same
rule. -/
theorem openScanResult : Obligations.OpenScanResult := by
  intro s hstate
  constructor
  · calc exec .cdOpen s
        = enterProcessPacketDone s := exec_cdOpen s
      _ = .next (packetDone s) := enterProcessPacketDone_next (mapped_processPacketDone hstate)
  · calc exec .cdScan s
        = enterProcessPacketDone s := exec_cdScan s
      _ = exec .cdOpen s := (exec_cdOpen s).symm

end Sys2Proof.Machine
end

section
/-! PROOFS. The enable flag of the DMA engine (R253). -/

namespace Sys2Proof.Machine

/-- DMA.enable runs its rule (R253). -/
theorem exec_dmaEnable (v : Bool) (s : State) : exec (.dmaEnable v) s = execDmaEnable v s := rfl

/-- A write of 1 keeps the start flag: only 0 aborts (R253). -/
theorem execDmaEnable_true (s : State) : execDmaEnable true s = .next { s with dma.enable := true } := by
  rw [execDmaEnable, Bool.and_true]

/-- A write of 0 clears both flags, whether or not the engine was started (R253). -/
theorem execDmaEnable_false (s : State) :
    execDmaEnable false s = .next { s with dma.enable := false, dma.start := false } := by
  rw [execDmaEnable, Bool.and_false]

/-- The abort is idempotent (R253): the state it leaves is one it does not change. -/
theorem execDmaEnable_false_again {s t : State} (hfirst : execDmaEnable false s = .next t) :
    execDmaEnable false t = .next t := by
  rw [execDmaEnable_false] at hfirst
  cases hfirst
  exact execDmaEnable_false _

/-- Settles O40: the start flag becomes its conjunction with the bit written, which 1 keeps and 0 clears; a second 0
finds both flags already clear. -/
theorem dmaEnableResult : Obligations.DmaEnableResult := by
  intro s
  refine ⟨?enable, ?abort, ?again⟩
  case enable => exact (exec_dmaEnable true s).trans (execDmaEnable_true s)
  case abort => exact (exec_dmaEnable false s).trans (execDmaEnable_false s)
  case again =>
    intro t hfirst
    rw [exec_dmaEnable] at hfirst ⊢
    exact execDmaEnable_false_again hfirst

end Sys2Proof.Machine
end

section
/-! PROOFS. The end of a pass of the CD-audio player (R281). -/

namespace Sys2Proof.Machine

/-- The disc status "paused" is the low nibble of Sector Number; the format nibble above it stays. -/
theorem setDiscStatus_paused (s : State) :
    setDiscStatus .paused s = { s with
      drive.sectorNumber := s.drive.sectorNumber.extractLsb' 4 4 ++ s.cfg.discStatusPaused } := rfl

/-- With no repeat left, the end of a pass terminates the play (R281). -/
theorem audioEndReached_of_noRepeat {s : State} (hlast : s.drive.cdda.repeatCount = 0) :
    audioEndReached s = setDiscStatus .paused { s with drive.cdda.status := .terminated } := by
  rw [audioEndReached, if_pos hlast]

/-- The infinite repeat count is kept at the end of a pass, and the position wraps (R281). -/
theorem audioEndReached_of_infinite {s : State} (hrepeat : s.drive.cdda.repeatCount ≠ 0)
    (hinf : s.drive.cdda.repeatCount = s.cfg.repeatInfinite) :
    audioEndReached s = { s with drive.cdda.currentFad := s.drive.cdda.startFad } := by
  rw [audioEndReached, if_neg hrepeat, if_pos hinf, ← hinf]

/-- A finite repeat count goes down at the end of a pass, and the position wraps (R281). -/
theorem audioEndReached_of_finite {s : State} (hrepeat : s.drive.cdda.repeatCount ≠ 0)
    (hfin : s.drive.cdda.repeatCount ≠ s.cfg.repeatInfinite) :
    audioEndReached s = { s with
      drive.cdda.repeatCount := s.drive.cdda.repeatCount - 1
      drive.cdda.currentFad := s.drive.cdda.startFad } := by
  rw [audioEndReached, if_neg hrepeat, if_neg hfin]

/-- Settles O45: the last pass, the infinite repeat and the finite repeat are the three ends of a pass. -/
theorem endReached : Obligations.EndReached := by
  intro s
  by_cases hlast : s.drive.cdda.repeatCount = 0
  case pos => rw [if_pos hlast, audioEndReached_of_noRepeat hlast, setDiscStatus_paused]
  case neg =>
    rw [if_neg hlast]
    by_cases hinf : s.drive.cdda.repeatCount = s.cfg.repeatInfinite
    case pos => rw [audioEndReached_of_infinite hlast hinf, if_neg (not_not_intro hinf)]
    case neg => rw [audioEndReached_of_finite hlast hinf, if_pos hinf]

end Sys2Proof.Machine
end

section
/-! PROOFS. The events on the interrupt lines that only a Status read and a DMA tick put out (R311, R312), and the
outcomes that add none of them. -/

namespace Sys2Proof.Machine

/-- The events that are kept for one operation each: a cancel of either line, for the Status read (R312), and the raise
of `DmaComplete`, for the DMA tick (R311). -/
def guardedEvent : Event → Bool
  | .cancel _ => true
  | .raise .dmaComplete => true
  | _ => false

/-- The guarded events among those put out, in order. -/
def guardedEvents (es : List Event) : List Event := es.filter guardedEvent

@[simp] theorem guardedEvents_nil : guardedEvents [] = [] := rfl

@[simp] theorem guardedEvents_append (a b : List Event) :
    guardedEvents (a ++ b) = guardedEvents a ++ guardedEvents b := List.filter_append ..

theorem mem_guardedEvents {e : Event} {es : List Event} (hguard : guardedEvent e = true) :
    e ∈ guardedEvents es ↔ e ∈ es := by
  simp [guardedEvents, hguard]

/-- Putting out an event that is not guarded adds no guarded event. -/
theorem guardedEvents_concat {e : Event} (hguard : guardedEvent e = false) (es : List Event) :
    guardedEvents (es ++ [e]) = guardedEvents es := by
  simp [guardedEvents, hguard]

/-- An outcome is quiet after the events `es` if a next state adds no guarded event to them. -/
structure Quiet (r : Res) (es : List Event) : Prop where
  guardedEvents_eq : ∀ t, r = .next t → guardedEvents t.events = guardedEvents es

theorem quiet_next {t : State} {es : List Event} (h : guardedEvents t.events = guardedEvents es) :
    Quiet (.next t) es := ⟨by rintro _ ⟨⟩; exact h⟩

theorem quiet_fault {f : Fault} {es : List Event} : Quiet (.fault f) es := ⟨fun _ h => nomatch h⟩

theorem quiet_refused {q : Refusal} {es : List Event} : Quiet (.refused q) es := ⟨fun _ h => nomatch h⟩

/-- A sequence is quiet if its parts are. -/
theorem Quiet.andThen {r : Res} {k : State → Res} {es : List Event} (hr : Quiet r es)
    (hk : ∀ u, Quiet (k u) u.events) : Quiet (andThen r k) es := by
  constructor
  intro t ht
  obtain ⟨u, hu, hku⟩ := andThen_eq_next ht
  exact ((hk u).guardedEvents_eq t hku).trans (hr.guardedEvents_eq u hu)

/-- A choice between two quiet outcomes is quiet. -/
theorem Quiet.ite {c : Prop} [Decidable c] {a b : Res} {es : List Event} (ha : Quiet a es) (hb : Quiet b es) :
    Quiet (if c then a else b) es := by
  split
  · exact ha
  · exact hb

/-- An operation that is quiet after an unguarded event is quiet before it. -/
theorem Quiet.of_concat {r : Res} {e : Event} {es : List Event} (h : Quiet r (es ++ [e]))
    (hguard : guardedEvent e = false) : Quiet r es :=
  ⟨fun t ht => (h.guardedEvents_eq t ht).trans (guardedEvents_concat hguard es)⟩

/-- Putting out an unguarded event is quiet. -/
theorem emit_quiet {e : Event} (hguard : guardedEvent e = false) (s : State) : Quiet (.next (s.emit e)) s.events :=
  quiet_next (guardedEvents_concat hguard s.events)

theorem ignoredStep_quiet (s : State) : Quiet (ignoredStep s) s.events := emit_quiet rfl s

theorem ignoredRead_quiet (w : Width) (s : State) : Quiet (ignoredRead w s) s.events :=
  (emit_quiet (e := .readValue w 0) rfl (s.emit .ignored)).of_concat rfl

/-! ### Transitions and entry actions -/

theorem moveTo_quiet (p : Proto) (s : State) : Quiet (moveTo p s) s.events := by
  constructor
  intro t ht
  obtain ⟨-, rfl⟩ := moveTo_eq_next ht
  rfl

theorem enterWaitCommand_quiet (s : State) : Quiet (enterWaitCommand s) s.events :=
  (moveTo_quiet _ s).andThen fun _ => quiet_next rfl

theorem enterWaitPacket_quiet (s : State) : Quiet (enterWaitPacket s) s.events :=
  (moveTo_quiet _ s).andThen fun _ => quiet_next rfl

/-- `ProcessPacketDone` raises `CommandComplete`, which is not guarded. -/
theorem enterProcessPacketDone_quiet (s : State) : Quiet (enterProcessPacketDone s) s.events :=
  (moveTo_quiet _ s).andThen fun _ => (enterWaitCommand_quiet _).of_concat rfl

theorem enterPioEnd_quiet (s : State) : Quiet (enterPioEnd s) s.events :=
  (moveTo_quiet _ s).andThen fun _ => enterProcessPacketDone_quiet _

/-- Whether or not the configuration raises `CommandComplete` here, the line is not guarded. -/
theorem raiseLineIf_commandComplete_quiet (b : Bool) (s : State) :
    Quiet (.next (raiseLineIf b .commandComplete s)) s.events := by
  cases b with
  | false => exact quiet_next (by simp [raiseLineIf])
  | true => exact quiet_next (guardedEvents_concat rfl s.events)

theorem openPioWindow_quiet (p : Proto) (s : State) : Quiet (openPioWindow p s) s.events :=
  (moveTo_quiet p s).andThen fun _ => raiseLineIf_commandComplete_quiet _ _

theorem enterProcessSetMode_quiet (s : State) : Quiet (enterProcessSetMode s) s.events :=
  (moveTo_quiet _ s).andThen fun _ => enterPioEnd_quiet _

theorem stageReply_quiet (b : List Byte) (len : Nat) (next : Proto) (s : State) :
    Quiet (stageReply b len next s) s.events :=
  .ite (.ite (enterPioEnd_quiet _) quiet_fault) (openPioWindow_quiet _ _)

theorem stageReceive_quiet (len : Nat) (s : State) : Quiet (stageReceive len s) s.events :=
  .ite (enterProcessSetMode_quiet _) (openPioWindow_quiet _ _)

theorem enterReadSectorPio_quiet (s : State) : Quiet (enterReadSectorPio s) s.events :=
  (moveTo_quiet _ s).andThen fun _ => stageReply_quiet _ _ _ _

theorem enterReadSectorDma_quiet (s : State) : Quiet (enterReadSectorDma s) s.events :=
  (moveTo_quiet _ s).andThen fun u => quiet_next (congrArg guardedEvents (fillCache_events u))

theorem enterContinuation_quiet (s : State) : Quiet (enterContinuation s) s.events := by
  unfold enterContinuation
  split
  · exact enterPioEnd_quiet s
  · exact enterReadSectorPio_quiet s
  · exact enterProcessSetMode_quiet s
  · exact quiet_fault

/-! ### Completions and errors -/

/-- A completion raises `CommandComplete`, which is not guarded. -/
theorem ataComplete_quiet (a : Bool) (s : State) : Quiet (ataComplete a s) s.events :=
  (enterWaitCommand_quiet _).of_concat rfl

theorem packetError_quiet (q : Sense) (a : Bool) (s : State) : Quiet (packetError q a s) s.events :=
  enterProcessPacketDone_quiet _

theorem paramError_quiet (s : State) : Quiet (paramError s) s.events := packetError_quiet _ _ s

@[simp] theorem unitAttention_events (s : State) : (unitAttention s).events = s.events := by
  unfold unitAttention
  split
  · rfl
  · rfl

@[simp] theorem setDiscStatus_events (d : DiscStatus) (s : State) : (setDiscStatus d s).events = s.events := rfl

@[simp] theorem setDiscRegister_events (d : DiscStatus) (s : State) : (setDiscRegister d s).events = s.events := rfl

@[simp] theorem discChange_events (m : Media) (s : State) : (discChange m s).events = s.events :=
  unitAttention_events _

end Sys2Proof.Machine
end

section
/-! PROOFS. The ATA and packet commands put out no guarded event (R180 to R189, R200 to R236). -/

namespace Sys2Proof.Machine

/-! ### ATA commands -/

theorem execExecuteDiagnostic_quiet (s : State) : Quiet (execExecuteDiagnostic s) s.events :=
  (enterWaitCommand_quiet _).of_concat rfl

theorem runAta_quiet (i : Instr) (s : State) : Quiet (runAta i s) s.events := by
  cases i with
  | nop => exact ataComplete_quiet true s
  | softReset => exact ataComplete_quiet false _
  | executeDiagnostic => exact execExecuteDiagnostic_quiet s
  | packet => exact enterWaitPacket_quiet s
  | identifyDevice => exact stageReply_quiet _ _ _ _
  | setFeatures => exact ataComplete_quiet false s
  | identify => exact ataComplete_quiet true _
  | ataUnknown _ => exact ataComplete_quiet true _
  | ataSwapReject => exact ataComplete_quiet true _
  | _ => exact quiet_fault

theorem enterProcessAtaCommand_quiet (s : State) : Quiet (enterProcessAtaCommand s) s.events :=
  (moveTo_quiet _ s).andThen fun _ => runAta_quiet _ _

/-! ### Packet commands -/

theorem execGetScd_quiet (format : BitVec 4) (alloc : Half) (s : State) :
    Quiet (execGetScd format alloc s) s.events :=
  .ite (stageReply_quiet _ _ _ _) (.ite (stageReply_quiet _ _ _ _)
    (.ite (stageReply_quiet _ _ _ _) (paramError_quiet s)))

theorem beginRead_quiet (flags : ReadFlags) (start : Addr3) (count : BitVec 32) (s : State) :
    Quiet (beginRead flags start count s) s.events :=
  .ite (enterReadSectorDma_quiet _) (enterReadSectorPio_quiet _)

theorem playFrom_quiet (msf : Bool) (start : Addr3) (rep : BitVec 4) (stop : Addr3) (s : State) :
    Quiet (playFrom msf start rep stop s) s.events := enterProcessPacketDone_quiet _

theorem playResume_quiet (s : State) : Quiet (playResume s) s.events :=
  .ite (enterProcessPacketDone_quiet _) (enterProcessPacketDone_quiet _)

theorem execCdPlay_quiet (ptype : BitVec 3) (start : Addr3) (rep : BitVec 4) (stop : Addr3) (s : State) :
    Quiet (execCdPlay ptype start rep stop s) s.events :=
  .ite (playFrom_quiet ..) (.ite (playFrom_quiet ..) (.ite (playResume_quiet s) (paramError_quiet s)))

theorem seekTo_quiet (fad : Fad) (s : State) : Quiet (seekTo fad s) s.events := enterProcessPacketDone_quiet _

theorem execCdSeek_quiet (ptype : BitVec 4) (target : Addr3) (s : State) :
    Quiet (execCdSeek ptype target s) s.events :=
  .ite (seekTo_quiet ..) (.ite (seekTo_quiet ..) (.ite (enterProcessPacketDone_quiet _)
    (.ite (enterProcessPacketDone_quiet _) (paramError_quiet s))))

theorem runPacket_quiet (i : Instr) (s : State) : Quiet (runPacket i s) s.events := by
  cases i with
  | testUnit => exact enterProcessPacketDone_quiet _
  | reqStat o l => exact stageReply_quiet _ _ _ _
  | reqMode o l => exact stageReply_quiet _ _ _ _
  | setMode o l => exact stageReceive_quiet _ _
  | reqError l => exact stageReply_quiet _ _ _ _
  | getToc a r => exact stageReply_quiet _ _ _ _
  | reqSes n l => exact stageReply_quiet _ _ _ _
  | cdOpen => exact enterProcessPacketDone_quiet s
  | cdPlay p a r b => exact execCdPlay_quiet p a r b s
  | cdSeek p a => exact execCdSeek_quiet p a s
  | cdScan => exact enterProcessPacketDone_quiet s
  | cdRead f a n => exact beginRead_quiet f a _ s
  | cdRead2 f a n => exact beginRead_quiet f a _ s
  | getScd f l => exact execGetScd_quiet f l s
  | pktUnknown b => exact packetError_quiet _ _ s
  | cdPlayFad a r b => exact playFrom_quiet false a r b s
  | cdPlayMsf a r b => exact playFrom_quiet true a r b s
  | cdPlayResume => exact playResume_quiet s
  | getScdRaw l => exact stageReply_quiet _ _ _ _
  | getScdQ l => exact stageReply_quiet _ _ _ _
  | getScdMcn l => exact stageReply_quiet _ _ _ _
  | pktMediaAbsent => exact packetError_quiet _ _ s
  | _ => exact quiet_fault

theorem enterProcessPacketCommand_quiet (s : State) : Quiet (enterProcessPacketCommand s) s.events :=
  (moveTo_quiet _ s).andThen fun _ => runPacket_quiet _ _

end Sys2Proof.Machine
end

section
/-! PROOFS. The host accesses but the Status read put out no guarded event (R150 to R164). -/

namespace Sys2Proof.Machine

/-- A read of an 8-bit port is quiet if its port rule is: the gate and the value read add no guarded event. -/
theorem portRead_quiet (w : Width) {s : State} {k : State → Byte × State}
    (hk : guardedEvents (k s).2.events = guardedEvents s.events) : Quiet (portRead w s k) s.events :=
  .ite quiet_refused (.ite (ignoredRead_quiet w s)
    (quiet_next ((guardedEvents_concat rfl _).trans hk)))

/-- A write of an 8-bit port is quiet if its port rule is. -/
theorem portWrite_quiet (w : Width) (v : BitVec 32) {s : State} {k : Byte → State → Res}
    (hk : Quiet (k (v.setWidth 8) s) s.events) : Quiet (portWrite w v s k) s.events :=
  .ite quiet_refused (.ite (ignoredStep_quiet s) hk)

/-- An access to the Data port is quiet if what it does at a closed and at an open gate is. -/
theorem dataAccess_quiet (w : Width) {s : State} {gated k : State → Res} (hgated : Quiet (gated s) s.events)
    (hk : Quiet (k s) s.events) : Quiet (dataAccess w s gated k) s.events :=
  .ite quiet_refused (.ite hgated hk)

theorem dataRead_quiet (w : Width) (s : State) : Quiet (dataRead w s) s.events :=
  .ite
    (Quiet.andThen (.ite (.ite quiet_fault (enterContinuation_quiet _)) (quiet_next rfl))
      fun u => emit_quiet rfl u)
    (ignoredRead_quiet w s)

theorem dataWrite_quiet (v : Half) (s : State) : Quiet (dataWrite v s) s.events :=
  .ite (.ite (enterProcessPacketCommand_quiet _) (quiet_next rfl))
    (.ite (.ite (.ite quiet_fault (enterContinuation_quiet _)) (quiet_next rfl)) (ignoredStep_quiet s))

theorem execW8DriveSelect_quiet (w : Width) (v : BitVec 32) (s : State) :
    Quiet (execW8DriveSelect w v s) s.events := .ite quiet_refused (quiet_next rfl)

theorem execW8Command_quiet (w : Width) (v : BitVec 32) (s : State) : Quiet (execW8Command w v s) s.events :=
  portWrite_quiet w v (.ite (enterProcessAtaCommand_quiet _) quiet_fault)

theorem execW8DeviceControl_quiet (w : Width) (v : BitVec 32) (s : State) :
    Quiet (execW8DeviceControl w v s) s.events := portWrite_quiet w v (ignoredStep_quiet s)

/-- Every read operation of a port but that of Status is quiet. -/
theorem exec_readOf_quiet {w : Width} {p : Port} {i : Instr} (hread : readOf w p = some i) (hport : p ≠ .status)
    (s : State) : Quiet (exec i s) s.events := by
  cases p with
  | status => exact absurd rfl hport
  | data => cases hread; exact dataAccess_quiet w (ignoredRead_quiet w s) (dataRead_quiet w s)
  | error | interruptReason | sectorCount | sectorNumber | byteCountLow | byteCountHigh | driveSelect | altStatus =>
    cases hread
    simp only [exec]
    refine portRead_quiet w ?_
    rfl
  | features | command | deviceControl => cases hread

/-- Every write operation of a port is quiet. -/
theorem exec_writeOf_quiet {w : Width} {v : BitVec 32} {p : Port} {i : Instr} (hwrite : writeOf w v p = some i)
    (s : State) : Quiet (exec i s) s.events := by
  cases p with
  | data => cases hwrite; exact dataAccess_quiet w (ignoredStep_quiet s) (dataWrite_quiet _ s)
  | features | sectorCount | sectorNumber | byteCountLow | byteCountHigh =>
    cases hwrite
    simp only [exec]
    refine portWrite_quiet w v ?_
    exact quiet_next rfl
  | driveSelect => cases hwrite; exact execW8DriveSelect_quiet w v s
  | command => cases hwrite; exact execW8Command_quiet w v s
  | deviceControl => cases hwrite; exact execW8DeviceControl_quiet w v s
  | error | interruptReason | status | altStatus => cases hwrite

theorem unmappedAccess_quiet (w : Width) (d : Dir) (s : State) : Quiet (unmappedAccess w d s) s.events := by
  cases d with
  | read => exact .ite quiet_refused (ignoredRead_quiet w s)
  | write => exact .ite quiet_refused (ignoredStep_quiet s)

theorem runUndecoded_quiet (u : Undecoded) (s : State) : Quiet (runUndecoded u s) s.events := by
  cases u with
  | unmappedAccess w d => exact unmappedAccess_quiet w d s
  | dmaSet a l d => exact quiet_next rfl
  | packetLength n => exact ignoredStep_quiet s

end Sys2Proof.Machine
end

section
/-! PROOFS. The agents' operations but the DMA tick put out no guarded event (R252, R253, R280 to R282, R340 to R344). -/

namespace Sys2Proof.Machine

theorem execDmaStart_quiet (s : State) : Quiet (execDmaStart s) s.events :=
  .ite (ignoredStep_quiet s) (.ite (ignoredStep_quiet s) (quiet_next rfl))

theorem execDmaEnable_quiet (v : Bool) (s : State) : Quiet (execDmaEnable v s) s.events := quiet_next rfl

@[simp] theorem audioEndReached_events (s : State) : (audioEndReached s).events = s.events := by
  unfold audioEndReached
  split
  · rfl
  · rfl

/-- The audio tick puts out a sector, at the end of a pass as before it. -/
theorem execTickAudio_quiet (s : State) : Quiet (execTickAudio s) s.events := by
  unfold execTickAudio
  refine .ite (quiet_next ((guardedEvents_concat rfl _).trans ?_)) (emit_quiet rfl s)
  split
  · rw [audioEndReached_events]; rfl
  · rfl

theorem execTickSwap_quiet (s : State) : Quiet (execTickSwap s) s.events :=
  .ite (quiet_next rfl) (quiet_next (congrArg guardedEvents (unitAttention_events _)))

theorem discChange_quiet (m : Media) (s : State) : Quiet (.next (discChange m s)) s.events :=
  quiet_next (congrArg guardedEvents (discChange_events m s))

end Sys2Proof.Machine
end

section
/-! PROOFS. The two operations that put out guarded events: the Status read (R161, R312) and the DMA tick (R254, R311). -/

namespace Sys2Proof.Machine

/-! ### The Status read -/

/-- Behind the closed gate the Status read cancels nothing (R150). -/
theorem execR8Status_quiet_of_gated {w : Width} {s : State} (hgate : slaveSelected s.drive.driveSelect = true) :
    Quiet (execR8Status w s) s.events := by
  rw [execR8Status, portRead, if_pos hgate]
  exact .ite quiet_refused (ignoredRead_quiet w s)

/-- Past the gate the Status read cancels both lines (R161). -/
theorem execR8Status_guardedEvents {w : Width} {s t : State} (hgate : slaveSelected s.drive.driveSelect = false)
    (hnext : execR8Status w s = .next t) :
    guardedEvents t.events = guardedEvents s.events ++ [.cancel .commandComplete, .cancel .dmaComplete] := by
  by_cases hwidth : w = .w32
  case pos => rw [execR8Status, portRead, if_pos hwidth] at hnext; cases hnext
  case neg =>
    rw [execR8Status, portRead_next hwidth hgate] at hnext
    cases hnext
    simp only [emit_events, cancelLine_events, nextDraw_events, guardedEvents_append, List.append_assoc]
    rfl

/-! ### The DMA tick -/

/-- If `enter(ProcessPacketDone)` answers a next state, it is the one `packetDone` writes out (R130, R121). -/
theorem enterProcessPacketDone_eq_next {s t : State} (hnext : enterProcessPacketDone s = .next t) :
    t = packetDone s := by
  obtain ⟨u, hu, -⟩ := andThen_eq_next hnext
  obtain ⟨hmapped, -⟩ := moveTo_eq_next hu
  rw [enterProcessPacketDone_next hmapped] at hnext
  cases hnext
  rfl

@[simp] theorem dmaRefill_events (s : State) : (dmaRefill s).events = s.events := by
  unfold dmaRefill
  split
  · exact fillCache_events s
  · rfl

/-- The store of step 2 is no guarded event. -/
theorem dmaMove_guardedEvents (n : Nat) (s : State) :
    guardedEvents (dmaMove n s).events = guardedEvents s.events := by
  rw [dmaMove_eq]
  by_cases hn : n = 0
  · simp [hn]
  · simp [hn, guardedEvents, guardedEvent]

/-- Step 3 raises `DmaComplete` exactly at the burst's length, and then clears the start flag. -/
theorem dmaCountUp_guardedEvents (n : Nat) (s : State) :
    guardedEvents (dmaCountUp n s).events = guardedEvents s.events ∨
    guardedEvents (dmaCountUp n s).events = guardedEvents s.events ++ [.raise .dmaComplete] ∧
      (dmaCountUp n s).dma.transferred = (dmaCountUp n s).dma.length ∧ (dmaCountUp n s).dma.start = false := by
  rw [dmaCountUp_eq]
  by_cases hlast : s.dma.transferred + BitVec.ofNat 32 n = s.dma.length
  · right
    simp [hlast, guardedEvents, guardedEvent]
  · left
    simp [hlast]

/-- The state after steps 1 to 3 of a tick that runs (R254). -/
def dmaMoved (s : State) : State :=
  dmaCountUp (dmaCount (dmaRefill s)) (dmaMove (dmaCount (dmaRefill s)) (dmaRefill s))

/-- A tick that runs goes on from `dmaMoved` with the end of the command or with none, and reschedules (R254). -/
theorem dmaChunk_eq (s : State) : dmaChunk s = andThen
    (if (dmaMoved s).drive.rr.remaining = 0 ∧ (dmaMoved s).drive.cache.avail = 0
      then enterProcessPacketDone (dmaMoved s) else .next (dmaMoved s))
    fun u => .next (dmaReschedule u) := rfl

@[simp] theorem dmaReschedule_dma (s : State) : (dmaReschedule s).dma = s.dma := by
  unfold dmaReschedule
  split
  · rfl
  · rfl

@[simp] theorem dmaReschedule_events (s : State) : (dmaReschedule s).events = s.events := by
  unfold dmaReschedule
  split
  · rfl
  · rfl

/-- Steps 4 and 5 leave the DMA registers and the guarded events as step 3 left them. -/
theorem dmaChunk_next {s t : State} (hnext : dmaChunk s = .next t) :
    t.dma = (dmaMoved s).dma ∧ guardedEvents t.events = guardedEvents (dmaMoved s).events := by
  rw [dmaChunk_eq] at hnext
  obtain ⟨u, hu, hsched⟩ := andThen_eq_next hnext
  cases hsched
  rw [dmaReschedule_dma, dmaReschedule_events]
  split at hu
  case isTrue =>
    refine ⟨?_, (enterProcessPacketDone_quiet _).guardedEvents_eq u hu⟩
    rw [enterProcessPacketDone_eq_next hu]
    rfl
  case isFalse =>
    cases hu
    exact ⟨rfl, rfl⟩

/-- A tick that runs raises `DmaComplete` only when the count reaches the burst's length. -/
theorem dmaChunk_guardedEvents {s t : State} (hnext : dmaChunk s = .next t) :
    guardedEvents t.events = guardedEvents s.events ∨
    guardedEvents t.events = guardedEvents s.events ++ [.raise .dmaComplete] ∧
      t.dma.transferred = t.dma.length ∧ t.dma.start = false := by
  obtain ⟨hdma, hevents⟩ := dmaChunk_next hnext
  have hmove : guardedEvents (dmaMove (dmaCount (dmaRefill s)) (dmaRefill s)).events = guardedEvents s.events := by
    rw [dmaMove_guardedEvents, dmaRefill_events]
  rw [hdma, hevents, ← hmove]
  exact dmaCountUp_guardedEvents _ _

/-- What a DMA tick puts out (R254, R311): nothing guarded, or `DmaComplete` by a tick that runs and reaches the burst's
length. -/
theorem execTickDma_guardedEvents {s t : State} (hnext : execTickDma s = .next t) :
    guardedEvents t.events = guardedEvents s.events ∨
    guardedEvents t.events = guardedEvents s.events ++ [.raise .dmaComplete] ∧
      s.drive.dmaScheduled = true ∧ s.dma.start = true ∧ s.dma.enable = true ∧
      t.dma.transferred = t.dma.length ∧ t.dma.start = false := by
  unfold execTickDma at hnext
  split at hnext
  case isTrue => cases hnext; exact .inl rfl
  case isFalse hscheduled =>
  split at hnext
  case isTrue => cases hnext; exact .inl rfl
  case isFalse hrunning =>
  split at hnext
  case isTrue => cases hnext; exact .inl rfl
  case isFalse =>
  split at hnext
  case isTrue => cases hnext; exact .inl rfl
  case isFalse =>
    rcases dmaChunk_guardedEvents hnext with hquiet | ⟨hraise, hlength, hstop⟩
    · exact .inl hquiet
    · obtain ⟨hstart, henable⟩ := not_or.1 hrunning
      exact .inr ⟨hraise, Bool.eq_true_of_not_eq_false hscheduled, Bool.eq_true_of_not_eq_false hstart,
        Bool.eq_true_of_not_eq_false henable, hlength, hstop⟩

end Sys2Proof.Machine
end

section
/-! PROOFS. Which steps put out guarded events: what each input runs (R2, R62), and the statement on the interrupt lines
(R311, R312). -/

namespace Sys2Proof.Machine

/-- What a step does with the input it has taken (R62). -/
def runInput (x : Input) (s : State) : Res :=
  match decodeInput s.cfg x with
  | .ok i => exec i s
  | .error u => runUndecoded u s

/-- A step with an input pending runs it. -/
theorem step_of_pending {s : State} {x : Input} {rest : List Input} (hpending : s.pending = x :: rest) :
    step s = runInput x (takeInput rest s) := by
  unfold step
  rw [hpending]
  rfl

/-- A step with no input pending is idle (R40). -/
theorem step_of_idle {s : State} (hpending : s.pending = []) : step s = .next (idleStep s) := by
  unfold step
  rw [hpending]

/-- An input runs quietly if the operation it decodes to does; what decodes to none is quiet. -/
theorem runInput_quiet_of_decoded {x : Input} {s : State}
    (hdecoded : ∀ i, decodeInput s.cfg x = .ok i → Quiet (exec i s) s.events) : Quiet (runInput x s) s.events := by
  unfold runInput
  split
  next i hi => exact hdecoded i hi
  next u _ => exact runUndecoded_quiet u s

/-- An access decodes to an operation only by a port that has one in its direction. -/
theorem orElseUndecoded_bind_ok {o : Option Port} {f : Port → Option Instr} {u : Undecoded} {i : Instr}
    (h : orElseUndecoded (o.bind f) u = .ok i) : ∃ p, o = some p ∧ f p = some i := by
  unfold orElseUndecoded at h
  split at h
  next j hj =>
    cases h
    exact Option.bind_eq_some_iff.1 hj
  next => cases h

/-- Every input but a DMA tick and a read of the Status port runs quietly. -/
theorem runInput_quiet {x : Input} {s : State} (htick : x ≠ .tickDma)
    (hstatus : ∀ w a, x = .read w a → lookupPort s.cfg a .read ≠ some .status) : Quiet (runInput x s) s.events := by
  cases x with
  | read w a =>
    refine runInput_quiet_of_decoded fun i hi => ?_
    obtain ⟨p, hport, hread⟩ := orElseUndecoded_bind_ok hi
    exact exec_readOf_quiet hread (fun hp => hstatus w a rfl (hp ▸ hport)) s
  | write w a v =>
    refine runInput_quiet_of_decoded fun i hi => ?_
    obtain ⟨p, -, hwrite⟩ := orElseUndecoded_bind_ok hi
    exact exec_writeOf_quiet hwrite s
  | dmaSet a l d => exact runUndecoded_quiet (.dmaSet a l d) s
  | dmaStart => exact execDmaStart_quiet s
  | dmaEnable v => exact execDmaEnable_quiet v s
  | tickDma => exact absurd rfl htick
  | tickAudio => exact execTickAudio_quiet s
  | tickSwap => exact execTickSwap_quiet s
  | hardReset => exact quiet_next rfl
  | trayOpen m => exact discChange_quiet m s
  | trayClose m => exact discChange_quiet m s
  | swapBegin m => exact quiet_next rfl

/-- A DMA tick runs its rule. -/
theorem runInput_tickDma (s : State) : runInput .tickDma s = execTickDma s := rfl

/-- A read of the Status port runs its rule. -/
theorem runInput_status {w : Width} {a : Addr} {s : State} (hport : lookupPort s.cfg a .read = some .status) :
    runInput (.read w a) s = execR8Status w s := by
  have hdecode : decodeInput s.cfg (.read w a) = .ok (.r8Status w) := by
    rw [decodeInput, hport]
    rfl
  rw [runInput, hdecode]
  rfl

/-- The next step is a Status read that passes the slave gate (R161). -/
def StatusReadNext (s : State) : Prop :=
  ∃ w a rest, s.pending = .read w a :: rest ∧ lookupPort s.cfg a .read = some .status ∧
    s.drive.driveSelect.getLsbD 4 = false

/-- The next step is a DMA tick that runs and answers `t` with the count at the burst's length (R254). -/
def BurstEnds (s t : State) : Prop :=
  (∃ rest, s.pending = .tickDma :: rest) ∧ s.drive.dmaScheduled = true ∧ s.dma.start = true ∧
  s.dma.enable = true ∧ t.dma.transferred = t.dma.length ∧ t.dma.start = false

/-- A step that is a Status read past the gate cancels both lines and puts out nothing else guarded. -/
theorem step_guardedEvents_of_statusRead {s t : State} (hread : StatusReadNext s) (hnext : step s = .next t) :
    guardedEvents t.events = [.cancel .commandComplete, .cancel .dmaComplete] := by
  obtain ⟨w, a, rest, hpending, hport, hgate⟩ := hread
  rw [step_of_pending hpending, runInput_status (s := takeInput rest s) hport] at hnext
  exact execR8Status_guardedEvents (s := takeInput rest s) hgate hnext

/-- The guarded events of a step: none, or the two cancels of a Status read past the gate, or the raise of `DmaComplete`
of a tick at the end of its burst. -/
theorem step_guardedEvents {s t : State} (hnext : step s = .next t) :
    guardedEvents t.events = [] ∨
    StatusReadNext s ∧ guardedEvents t.events = [.cancel .commandComplete, .cancel .dmaComplete] ∨
    BurstEnds s t ∧ guardedEvents t.events = [.raise .dmaComplete] := by
  cases hpending : s.pending with
  | nil =>
    rw [step_of_idle hpending] at hnext
    cases hnext
    exact .inl rfl
  | cons x rest =>
    have hrun : runInput x (takeInput rest s) = .next t := (step_of_pending hpending).symm.trans hnext
    by_cases htick : x = .tickDma
    case pos =>
      subst htick
      rw [runInput_tickDma] at hrun
      rcases execTickDma_guardedEvents hrun with hquiet | ⟨hraise, hends⟩
      · exact .inl hquiet
      · exact .inr (.inr ⟨⟨⟨rest, hpending⟩, hends⟩, hraise⟩)
    case neg =>
      by_cases hstatus : ∃ w a, x = .read w a ∧ lookupPort s.cfg a .read = some .status
      case pos =>
        obtain ⟨w, a, rfl, hport⟩ := hstatus
        cases hgate : slaveSelected s.drive.driveSelect with
        | true =>
          rw [runInput_status (s := takeInput rest s) hport] at hrun
          exact .inl ((execR8Status_quiet_of_gated (s := takeInput rest s) hgate).guardedEvents_eq t hrun)
        | false =>
          have hread : StatusReadNext s := ⟨w, a, rest, hpending, hport, hgate⟩
          exact .inr (.inl ⟨hread, step_guardedEvents_of_statusRead hread hnext⟩)
      case neg =>
        have hquiet : Quiet (runInput x (takeInput rest s)) [] :=
          runInput_quiet htick fun w a hx hport => hstatus ⟨w, a, hx, hport⟩
        exact .inl (hquiet.guardedEvents_eq t hrun)

/-- Only a Status read past the gate cancels a line (R312). -/
theorem statusReadNext_of_cancel {s t : State} {l : Line} (hnext : step s = .next t)
    (hcancel : Event.cancel l ∈ t.events) : StatusReadNext s := by
  rw [← mem_guardedEvents rfl] at hcancel
  rcases step_guardedEvents hnext with hnone | ⟨hread, -⟩ | ⟨-, hraise⟩
  · simp [hnone] at hcancel
  · exact hread
  · simp [hraise] at hcancel

/-- Only a DMA tick at the end of its burst raises `DmaComplete` (R311). -/
theorem burstEnds_of_raise {s t : State} (hnext : step s = .next t)
    (hraised : Event.raise .dmaComplete ∈ t.events) : BurstEnds s t := by
  rw [← mem_guardedEvents rfl] at hraised
  rcases step_guardedEvents hnext with hnone | ⟨-, hcancels⟩ | ⟨hends, -⟩
  · simp [hnone] at hraised
  · simp [hcancels] at hraised
  · exact hends

/-- A Status read past the gate cancels each line (R312). -/
theorem cancel_mem_of_statusRead {s t : State} (hread : StatusReadNext s) (hnext : step s = .next t) (l : Line) :
    Event.cancel l ∈ t.events := by
  rw [← mem_guardedEvents rfl, step_guardedEvents_of_statusRead hread hnext]
  cases l with
  | commandComplete => simp
  | dmaComplete => simp

/-- Settles O54: every operation but the Status read and the DMA tick is quiet, so a guarded event in a step names the
operation that put it out. -/
theorem interruptLines : Obligations.InterruptLines := by
  intro s t hnext
  refine ⟨?both, ?cancel, ?raise⟩
  case both =>
    intro hread
    exact ⟨cancel_mem_of_statusRead hread hnext .commandComplete, cancel_mem_of_statusRead hread hnext .dmaComplete⟩
  case cancel => exact fun _ hcancel => statusReadNext_of_cancel hnext hcancel
  case raise => exact fun hraised => burstEnds_of_raise hnext hraised

end Sys2Proof.Machine
end

section
/-! PROOFS. Decoding and encoding (R80 to R97): the decoders as tables of opcodes, the bytes of an encoded packet, and
the port an encoded access reaches. -/

namespace Sys2Proof

/-! ### The decoders as tables of opcodes -/

/-- The entry of an opcode table that an opcode selects, or the default if it has none. -/
def selectOp (op : Byte) (default : Instr) : List (Byte × Instr) → Instr
  | [] => default
  | entry :: table => if op = entry.1 then entry.2 else selectOp op default table

/-- In a table with distinct opcodes an entry is selected by its opcode. -/
theorem selectOp_of_mem {op : Byte} {default i : Instr} {table : List (Byte × Instr)}
    (hnodup : (table.map Prod.fst).Nodup) (hmem : (op, i) ∈ table) : selectOp op default table = i := by
  induction table with
  | nil => cases hmem
  | cons entry table ih =>
    obtain ⟨hnot, hnodup⟩ := List.nodup_cons.1 hnodup
    rcases List.mem_cons.1 hmem with rfl | hmem
    · simp [selectOp]
    · have hne : op ≠ entry.1 := fun h => hnot (h ▸ List.mem_map_of_mem (f := Prod.fst) hmem)
      rw [selectOp, if_neg hne]
      exact ih hnodup hmem

/-- An opcode that no entry has selects the default. -/
theorem selectOp_of_not_mem {op : Byte} {default : Instr} {table : List (Byte × Instr)}
    (hnot : op ∉ table.map Prod.fst) : selectOp op default table = default := by
  induction table with
  | nil => rfl
  | cons entry table ih =>
    obtain ⟨hne, hnot⟩ := not_or.1 (fun h => hnot (List.mem_cons.2 h))
    rw [selectOp, if_neg hne]
    exact ih hnot

/-- What holds of every entry, and of the default for the opcodes that none has, holds of what is selected. -/
theorem selectOp_induction {motive : Instr → Prop} {op : Byte} {default : Instr} {table : List (Byte × Instr)}
    (hentry : ∀ i, (op, i) ∈ table → motive i) (hdefault : op ∉ table.map Prod.fst → motive default) :
    motive (selectOp op default table) := by
  induction table with
  | nil => exact hdefault List.not_mem_nil
  | cons entry table ih =>
    by_cases heq : op = entry.1
    · rw [selectOp, if_pos heq]
      exact hentry _ (heq ▸ List.mem_cons_self)
    · rw [selectOp, if_neg heq]
      refine ih (fun i hi => hentry i (List.mem_cons_of_mem _ hi)) fun hnot => hdefault ?_
      exact fun h => (List.mem_cons.1 h).elim heq hnot

/-- The commands of R82 with their opcodes. -/
def ataTable (c : Cfg) : List (Byte × Instr) :=
  [(c.opAtaNop, .nop), (c.opAtaSoftReset, .softReset), (c.opAtaExecDiag, .executeDiagnostic),
   (c.opAtaPacket, .packet), (c.opAtaIdentifyDev, .identifyDevice), (c.opAtaSetFeatures, .setFeatures),
   (c.opAtaIdentify, .identify)]

/-- The commands of R84 with their opcodes, their operands read from the packet. -/
def packetTable (c : Cfg) (p : List Byte) : List (Byte × Instr) :=
  [(c.opPktTestUnit, .testUnit),
   (c.opPktReqStat, .reqStat (packetByte p 2) (packetByte p 4)),
   (c.opPktReqMode, .reqMode (packetByte p 2) (packetByte p 4)),
   (c.opPktSetMode, .setMode (packetByte p 2) (packetByte p 4)),
   (c.opPktReqError, .reqError (packetByte p 4)),
   (c.opPktGetToc, .getToc ((packetByte p 1).getLsbD 0) (tocRequest c p)),
   (c.opPktReqSes, .reqSes (packetByte p 2) (packetByte p 4)),
   (c.opPktCdOpen, .cdOpen),
   (c.opPktCdPlay, decodePlay p),
   (c.opPktCdSeek, .cdSeek ((packetByte p 1).extractLsb' 0 4) (packetAddr p 2)),
   (c.opPktCdScan, .cdScan),
   (c.opPktCdRead,
    .cdRead (.ofByte (packetByte p 1)) (packetAddr p 2) (packetByte p 8 ++ packetByte p 9 ++ packetByte p 10)),
   (c.opPktCdRead2, .cdRead2 (.ofByte (packetByte p 1)) (packetAddr p 2) (packetByte p 6 ++ packetByte p 7)),
   (c.opPktGetScd, decodeSubcode p)]

theorem decodeAta_eq_selectOp (c : Cfg) (b : Byte) : decodeAta c b = selectOp b (.ataUnknown b) (ataTable c) := rfl

theorem decodePacket_eq_selectOp (c : Cfg) (p : List Byte) :
    decodePacket c p = selectOp (packetByte p 0) (.pktUnknown (packetByte p 0)) (packetTable c p) := rfl

theorem ataTable_opcodes (c : Cfg) : (ataTable c).map Prod.fst = c.ataOpcodes := rfl

theorem packetTable_opcodes (c : Cfg) (p : List Byte) : (packetTable c p).map Prod.fst = c.packetOpcodes := rfl

/-- A command byte of R82 decodes to its command. -/
theorem decodeAta_of_mem {c : Cfg} {b : Byte} {i : Instr} (hc : c.Wf) (hmem : (b, i) ∈ ataTable c) :
    decode c (.ata b) = .ok i := by
  obtain ⟨⟨hnodup, -⟩, -⟩ := hc
  rw [decode, decodeAta_eq_selectOp, selectOp_of_mem (ataTable_opcodes c ▸ hnodup) hmem]

/-- A packet whose first byte is an opcode of R84 decodes to its command. -/
theorem decodePacket_of_mem {c : Cfg} {p : List Byte} {i : Instr} (hc : c.Wf)
    (hmem : (packetByte p 0, i) ∈ packetTable c p) : decodePacket c p = i := by
  obtain ⟨⟨-, hnodup, -⟩, -⟩ := hc
  rw [decodePacket_eq_selectOp, selectOp_of_mem (packetTable_opcodes c p ▸ hnodup) hmem]

/-! ### The bytes of an encoded packet -/

/-- The packet `packetFrame` builds. -/
def packetOf (c : Cfg) (op b1 b2 b3 b4 b5 b6 b7 b8 b9 b10 : Byte) : List Byte :=
  op :: b1 :: b2 :: b3 :: b4 :: b5 :: b6 :: b7 :: b8 :: b9 :: b10 :: List.replicate (c.packetBytes - 11) 0

/-- An encoded packet has `PACKET_BYTES` bytes, so it decodes by its opcode. -/
theorem decode_packetFrame {c : Cfg} {op b1 b2 b3 b4 b5 b6 b7 b8 b9 b10 : Byte} {f : Frame} (hc : c.Wf)
    (hf : packetFrame c op b1 b2 b3 b4 b5 b6 b7 b8 b9 b10 = some f) :
    decode c f = .ok (decodePacket c (packetOf c op b1 b2 b3 b4 b5 b6 b7 b8 b9 b10)) := by
  obtain ⟨-, h12, -⟩ := hc
  obtain rfl := Option.some.inj hf
  have hlength : (packetOf c op b1 b2 b3 b4 b5 b6 b7 b8 b9 b10).length = c.packetBytes := by
    simp [packetOf]
    omega
  exact if_pos hlength

/-- An encoded packet whose opcode and operands make an entry of the table of R84 decodes to that entry. -/
theorem decode_packetFrame_of_mem {c : Cfg} {op b1 b2 b3 b4 b5 b6 b7 b8 b9 b10 : Byte} {f : Frame} {i : Instr}
    (hc : c.Wf) (hf : packetFrame c op b1 b2 b3 b4 b5 b6 b7 b8 b9 b10 = some f)
    (hmem : (op, i) ∈ packetTable c (packetOf c op b1 b2 b3 b4 b5 b6 b7 b8 b9 b10)) : decode c f = .ok i := by
  rw [decode_packetFrame hc hf, decodePacket_of_mem hc hmem]

/-! ### The fields of the operands put together again -/

/-- A field narrower than a byte, read from the byte it was widened to. -/
theorem extractLsb'_setWidth_byte {n : Nat} (v : BitVec n) (hn : n ≤ 8) : (v.setWidth 8).extractLsb' 0 n = v := by
  rw [BitVec.extractLsb'_setWidth_of_le (by omega), BitVec.extractLsb'_eq_self]

/-- A word put together from its two bytes. -/
theorem half_of_bytes (v : Half) : (v.extractLsb' 8 8 ++ v.extractLsb' 0 8 : Half) = v :=
  BitVec.extractLsb'_append_extractLsb'

/-- A 24-bit number put together from its three bytes. -/
theorem bitVec24_of_bytes (v : BitVec 24) :
    (v.extractLsb' 16 8 ++ v.extractLsb' 8 8 ++ v.extractLsb' 0 8 : BitVec 24) = v := by
  rw [BitVec.extractLsb'_append_extractLsb'_eq_extractLsb' (by rfl)]
  exact BitVec.extractLsb'_append_extractLsb'

/-- The flag byte splits into the fields it was put together from (R88). -/
theorem ReadFlags.ofByte_toByte (f : ReadFlags) : ReadFlags.ofByte f.toByte = f := by
  obtain ⟨msf, expectedType, other, data, subheader, header⟩ := f
  simp only [ReadFlags.ofByte, ReadFlags.toByte, BitVec.getLsbD_append, ReadFlags.mk.injEq]
  refine ⟨by simp, ?_, by simp, by simp, by simp, by simp⟩
  exact (BitVec.extractLsb'_append_eq_of_le (Nat.le_refl 1)).trans BitVec.extractLsb'_append_eq_right

/-! ### The port an encoded access reaches -/

/-- The address a port is encoded at reaches that port: `PORT_OFFSET` is injective on (offset, direction) (R5, R51). -/
theorem lookupPort_of_portAddr {c : Cfg} {p : Port} {d : Dir} {a : Addr} (hc : c.Wf) (ha : portAddr c p d = some a) :
    lookupPort c a d = some p := by
  obtain ⟨⟨-, -, hinjective, -⟩, -⟩ := hc
  obtain ⟨e, he, rfl⟩ := Option.map_eq_some_iff.1 ha
  have hkey : e.port = p ∧ e.dir = d := by simpa using List.find?_some he
  obtain ⟨rfl, rfl⟩ := hkey
  obtain ⟨before, after, hmap⟩ := List.append_of_mem (List.mem_of_find?_eq_some he)
  rw [hmap] at hinjective
  have hbefore : ∀ x ∈ before, ¬ (x.addr = e.addr ∧ x.dir = e.dir) := fun x hx =>
    (List.pairwise_append.1 hinjective).2.2 x hx e List.mem_cons_self
  refine Option.map_eq_some_iff.2 ⟨e, List.find?_eq_some_iff_append.2 ⟨by simp, before, after, hmap, ?_⟩, rfl⟩
  intro x hx
  simpa only [Bool.and_eq_true, beq_iff_eq, Bool.not_eq_true', ← Bool.not_eq_true] using hbefore x hx

/-- An encoded read decodes to the read operation of its port. -/
theorem decode_encodeRead {c : Cfg} {p : Port} {w : Width} {f : Frame} {i : Instr} (hc : c.Wf)
    (hread : readOf w p = some i) (hf : encodeRead c p w = some f) : decode c f = .ok i := by
  obtain ⟨a, ha, rfl⟩ := Option.map_eq_some_iff.1 hf
  rw [decode, decodeInput, lookupPort_of_portAddr hc ha, Option.bind_some, hread]
  rfl

/-- An encoded write decodes to the write operation of its port. -/
theorem decode_encodeWrite {c : Cfg} {p : Port} {w : Width} {v : BitVec 32} {f : Frame} {i : Instr} (hc : c.Wf)
    (hwrite : writeOf w v p = some i) (hf : encodeWrite c p w v = some f) : decode c f = .ok i := by
  obtain ⟨a, ha, rfl⟩ := Option.map_eq_some_iff.1 hf
  rw [decode, decodeInput, lookupPort_of_portAddr hc ha, Option.bind_some, hwrite]
  rfl

end Sys2Proof
end

section
/-! PROOFS. The encoder and the decoder agree (R80 to R97). -/

namespace Sys2Proof

/-- What CD_PLAY reads of an encoded packet (R90). -/
theorem decodePlay_packetOf (c : Cfg) (op b1 b2 b3 b4 b5 b6 b7 b8 b9 b10 : Byte) :
    decodePlay (packetOf c op b1 b2 b3 b4 b5 b6 b7 b8 b9 b10) =
      if b1.extractLsb' 0 3 = 1 then .cdPlayFad ⟨b2, b3, b4⟩ (b6.extractLsb' 0 4) ⟨b8, b9, b10⟩
      else if b1.extractLsb' 0 3 = 2 then .cdPlayMsf ⟨b2, b3, b4⟩ (b6.extractLsb' 0 4) ⟨b8, b9, b10⟩
      else if b1.extractLsb' 0 3 = 7 then .cdPlayResume
      else .cdPlay (b1.extractLsb' 0 3) ⟨b2, b3, b4⟩ (b6.extractLsb' 0 4) ⟨b8, b9, b10⟩ := rfl

/-- An encoded CD_PLAY decodes by its parameter type. -/
theorem decode_playFrame {c : Cfg} {ptype : BitVec 3} {start : Addr3} {rep : BitVec 4} {stop : Addr3} {f : Frame}
    (hc : c.Wf) (hf : playFrame c ptype start rep stop = some f) : decode c f = .ok
      (if ptype = 1 then .cdPlayFad start rep stop
       else if ptype = 2 then .cdPlayMsf start rep stop
       else if ptype = 7 then .cdPlayResume
       else .cdPlay ptype start rep stop) := by
  refine decode_packetFrame_of_mem hc hf ?_
  rw [packetTable, decodePlay_packetOf, extractLsb'_setWidth_byte ptype (by omega),
    extractLsb'_setWidth_byte rep (by omega)]
  simp

/-- What GET_SCD reads of an encoded packet (R87). -/
theorem decodeSubcode_packetOf (c : Cfg) (op b1 b2 b3 b4 b5 b6 b7 b8 b9 b10 : Byte) :
    decodeSubcode (packetOf c op b1 b2 b3 b4 b5 b6 b7 b8 b9 b10) =
      if b1.extractLsb' 0 4 = 0 then .getScdRaw (b3 ++ b4)
      else if b1.extractLsb' 0 4 = 1 then .getScdQ (b3 ++ b4)
      else if b1.extractLsb' 0 4 = 2 then .getScdMcn (b3 ++ b4)
      else .getScd (b1.extractLsb' 0 4) (b3 ++ b4) := rfl

/-- An encoded GET_SCD decodes by its format. -/
theorem decode_subcodeFrame {c : Cfg} {format : BitVec 4} {alloc : Half} {f : Frame} (hc : c.Wf)
    (hf : subcodeFrame c format alloc = some f) : decode c f = .ok
      (if format = 0 then .getScdRaw alloc
       else if format = 1 then .getScdQ alloc
       else if format = 2 then .getScdMcn alloc
       else .getScd format alloc) := by
  refine decode_packetFrame_of_mem hc hf ?_
  rw [packetTable, decodeSubcode_packetOf, extractLsb'_setWidth_byte format (by omega), half_of_bytes]
  simp

/-- The length of GET_TOC is read from the two bytes it is encoded in, wherever the high one stands (R86). -/
theorem decode_encode_getToc {c : Cfg} {area : Bool} {req : Half} {f : Frame} (hc : c.Wf)
    (hf : encode c (.getToc area req) = some f) : decode c f = .ok (.getToc area req) := by
  have ⟨_, _, _, hhigh, _⟩ := hc
  simp only [encode] at hf
  rcases hhigh with h5 | h3
  · rw [if_neg (by omega)] at hf
    refine decode_packetFrame_of_mem hc hf ?_
    simp [packetTable, tocRequest, h5, packetOf, packetByte, half_of_bytes]
  · rw [if_pos h3] at hf
    refine decode_packetFrame_of_mem hc hf ?_
    simp [packetTable, tocRequest, h3, packetOf, packetByte, half_of_bytes]

/-- The parameter types that CD_PLAY's parent row keeps (log entry 17). -/
theorem wellFormed_cdPlay_iff (c : Cfg) (ptype : BitVec 3) (start : Addr3) (rep : BitVec 4) (stop : Addr3) :
    WellFormed c (.cdPlay ptype start rep stop) = true ↔ ptype ≠ 1 ∧ ptype ≠ 2 ∧ ptype ≠ 7 := by
  simp [WellFormed, and_assoc]

/-- The formats that GET_SCD's parent row keeps (log entry 17). -/
theorem wellFormed_getScd_iff (c : Cfg) (format : BitVec 4) (alloc : Half) :
    WellFormed c (.getScd format alloc) = true ↔ format ≠ 0 ∧ format ≠ 1 ∧ format ≠ 2 := by
  simp [WellFormed, and_assoc]

/-- Settles O1: a command byte and a packet are found again in the table of their opcodes, whose keys are distinct (R5),
and their operands byte by byte; an access is found again by its address, which no other port has in its direction. -/
theorem decodeEncode : Obligations.DecodeEncode := by
  intro c i f hc hwf hf
  cases i with
  | nop | softReset | executeDiagnostic | packet | identifyDevice | setFeatures | identify =>
    obtain rfl := Option.some.inj hf
    exact decodeAta_of_mem hc (by simp [ataTable])
  | ataUnknown b =>
    obtain rfl := Option.some.inj hf
    have hnot : b ∉ c.ataOpcodes := by simpa [WellFormed] using hwf
    rw [decode, decodeAta_eq_selectOp, selectOp_of_not_mem hnot]
  | ataSwapReject | pktParamError | pktMediaAbsent => cases hf
  | testUnit | cdOpen | cdScan => exact decode_packetFrame_of_mem hc hf (by simp [packetTable])
  | reqStat | reqMode | setMode | reqError | reqSes =>
    exact decode_packetFrame_of_mem hc hf (by simp [packetTable, packetOf, packetByte])
  | getToc area req => exact decode_encode_getToc hc hf
  | cdSeek ptype target =>
    refine decode_packetFrame_of_mem hc hf ?_
    simp [packetTable, packetOf, packetByte, packetAddr, extractLsb'_setWidth_byte]
  | cdRead flags start count =>
    refine decode_packetFrame_of_mem hc hf ?_
    simp [packetTable, packetOf, packetByte, packetAddr, ReadFlags.ofByte_toByte, bitVec24_of_bytes]
  | cdRead2 flags start count =>
    refine decode_packetFrame_of_mem hc hf ?_
    simp [packetTable, packetOf, packetByte, packetAddr, ReadFlags.ofByte_toByte, half_of_bytes]
  | pktUnknown op =>
    have hnot : op ∉ c.packetOpcodes := by simpa [WellFormed] using hwf
    rw [decode_packetFrame hc hf, decodePacket_eq_selectOp]
    exact congrArg _ (selectOp_of_not_mem hnot)
  | cdPlayFad start rep stop | cdPlayMsf start rep stop | cdPlayResume => exact decode_playFrame hc hf
  | cdPlay ptype start rep stop =>
    obtain ⟨h1, h2, h7⟩ := (wellFormed_cdPlay_iff c ptype start rep stop).1 hwf
    rw [decode_playFrame hc hf, if_neg h1, if_neg h2, if_neg h7]
  | getScdRaw alloc | getScdQ alloc | getScdMcn alloc => exact decode_subcodeFrame hc hf
  | getScd format alloc =>
    obtain ⟨h0, h1, h2⟩ := (wellFormed_getScd_iff c format alloc).1 hwf
    rw [decode_subcodeFrame hc hf, if_neg h0, if_neg h1, if_neg h2]
  | r16Data | r8Error | r8InterruptReason | r8SectorCount | r8SectorNumber | r8ByteCountLow | r8ByteCountHigh
  | r8DriveSelect | r8Status | r8AltStatus => exact decode_encodeRead hc rfl hf
  | w16Data | w8Features | w8SectorCount | w8SectorNumber | w8ByteCountLow | w8ByteCountHigh | w8DriveSelect
  | w8Command | w8DeviceControl => exact decode_encodeWrite hc rfl hf
  | dmaStart | dmaEnable | tickDma | tickAudio | tickSwap | eventHardReset | eventTrayOpen | eventTrayClose
  | eventSwapBegin =>
    obtain rfl := Option.some.inj hf
    rfl

/-! ### Every command byte and every packet -/

/-- A CD_PLAY is well formed: the parent row keeps only the parameter types that no variant has. -/
theorem wellFormed_decodePlay (c : Cfg) (p : List Byte) :
    (decodePlay p).format = .pkt12 ∧ WellFormed c (decodePlay p) = true := by
  unfold decodePlay
  dsimp only
  split
  case isTrue => exact ⟨rfl, rfl⟩
  case isFalse h1 =>
  split
  case isTrue => exact ⟨rfl, rfl⟩
  case isFalse h2 =>
  split
  case isTrue => exact ⟨rfl, rfl⟩
  case isFalse h7 => exact ⟨rfl, (wellFormed_cdPlay_iff ..).2 ⟨h1, h2, h7⟩⟩

/-- A GET_SCD is well formed: the parent row keeps only the formats that no variant has. -/
theorem wellFormed_decodeSubcode (c : Cfg) (p : List Byte) :
    (decodeSubcode p).format = .pkt12 ∧ WellFormed c (decodeSubcode p) = true := by
  unfold decodeSubcode
  dsimp only
  split
  case isTrue => exact ⟨rfl, rfl⟩
  case isFalse h0 =>
  split
  case isTrue => exact ⟨rfl, rfl⟩
  case isFalse h1 =>
  split
  case isTrue => exact ⟨rfl, rfl⟩
  case isFalse h2 => exact ⟨rfl, (wellFormed_getScd_iff ..).2 ⟨h0, h1, h2⟩⟩

/-- Every entry of the table of R84 is a well-formed packet command, whatever its operands. -/
theorem wellFormed_of_mem_packetTable (c : Cfg) (p : List Byte) :
    ∀ entry ∈ packetTable c p, entry.2.format = .pkt12 ∧ WellFormed c entry.2 = true := by
  simp only [packetTable, List.forall_mem_cons, List.not_mem_nil, IsEmpty.forall_iff, implies_true, and_true]
  exact ⟨⟨rfl, rfl⟩, ⟨rfl, rfl⟩, ⟨rfl, rfl⟩, ⟨rfl, rfl⟩, ⟨rfl, rfl⟩, ⟨rfl, rfl⟩, ⟨rfl, rfl⟩, ⟨rfl, rfl⟩,
    wellFormed_decodePlay c p, ⟨rfl, rfl⟩, ⟨rfl, rfl⟩, ⟨rfl, rfl⟩, ⟨rfl, rfl⟩, wellFormed_decodeSubcode c p⟩

/-- Every entry of the table of R82 is a well-formed ATA command that is encoded as its opcode. -/
theorem wellFormed_of_mem_ataTable (c : Cfg) : ∀ entry ∈ ataTable c,
    entry.2.format = .ata ∧ WellFormed c entry.2 = true ∧ encode c entry.2 = some (.ata entry.1) := by
  simp [ataTable, Instr.format, WellFormed, encode]

/-- What a packet decodes to is a well-formed packet command. -/
theorem wellFormed_decodePacket (c : Cfg) (p : List Byte) :
    (decodePacket c p).format = .pkt12 ∧ WellFormed c (decodePacket c p) = true := by
  rw [decodePacket_eq_selectOp]
  refine selectOp_induction (motive := fun i => i.format = .pkt12 ∧ WellFormed c i = true) ?entry ?unknown
  case entry => exact fun i hi => wellFormed_of_mem_packetTable c p _ hi
  case unknown =>
    intro hnot
    refine ⟨rfl, ?_⟩
    simpa [WellFormed] using (packetTable_opcodes c p ▸ hnot)

/-- What a command byte decodes to is a well-formed ATA command that is encoded as that byte. -/
theorem wellFormed_decodeAta (c : Cfg) (b : Byte) : (decodeAta c b).format = .ata ∧
    WellFormed c (decodeAta c b) = true ∧ encode c (decodeAta c b) = some (.ata b) := by
  rw [decodeAta_eq_selectOp]
  refine selectOp_induction
    (motive := fun i => i.format = .ata ∧ WellFormed c i = true ∧ encode c i = some (.ata b)) ?entry ?unknown
  case entry => exact fun i hi => wellFormed_of_mem_ataTable c _ hi
  case unknown =>
    intro hnot
    refine ⟨rfl, ?_, rfl⟩
    simpa [WellFormed] using (ataTable_opcodes c ▸ hnot)

/-- Settles O2: an entry of an opcode table is a command of its layer, and an opcode with no entry is the unknown
command, well formed because the table does not list it. -/
theorem decodeWellFormed : Obligations.DecodeWellFormed := by
  intro c b p _ hlength
  exact ⟨⟨_, rfl, wellFormed_decodeAta c b⟩, ⟨_, if_pos hlength, wellFormed_decodePacket c p⟩⟩

/-! ### Words written out -/

/-- Settles O3: the decoder evaluates on each word. -/
theorem decodeWords : Obligations.DecodeWords := by
  unfold Obligations.DecodeWords
  decide

end Sys2Proof
end

section
/-! PROOFS. Slices of a record (R99), host memory stores (R60), addresses and sector sizes (R92, R93). -/

namespace Sys2Proof.Machine

/-! ### Slices (R99) -/

/-- Clamping the offset and the length to the record changes nothing that a cut at the record's end does not. -/
theorem sliceOf_eq (r : List Byte) (off len : Nat) : sliceOf r off len = (r.drop off).take len := by
  unfold sliceOf
  dsimp only
  rcases Nat.le_total off r.length with hle | hge
  · rw [Nat.min_eq_left hle, ← List.length_drop, List.take_eq_take_iff]
    omega
  · rw [Nat.min_eq_right hge, List.drop_length, List.drop_eq_nil_of_le hge, List.take_nil, List.take_nil]

theorem sliceOf_length (r : List Byte) (off len : Nat) : (sliceOf r off len).length = min len (r.length - off) := by
  rw [sliceOf_eq, List.length_take, List.length_drop]

/-- A slice from the start of a record is the record cut to the length. -/
theorem sliceOf_zero (r : List Byte) (len : Nat) : sliceOf r 0 len = r.take len := by
  rw [sliceOf_eq, List.drop_zero]

/-- Byte `k` of a slice is byte `off + k` of the record. -/
theorem sliceOf_getElem? {r : List Byte} {off len k : Nat} (hk : k < (sliceOf r off len).length) :
    (sliceOf r off len)[k]? = r[off + k]? := by
  rw [sliceOf_length] at hk
  rw [sliceOf_eq, List.getElem?_take_of_lt (by omega), List.getElem?_drop]

/-- Settles O4: the slice is the record from the offset on, cut to the length; its length says the rest. -/
theorem sliceIsContiguous : Obligations.SliceIsContiguous := by
  intro r off len
  have hlength := sliceOf_length r off len
  refine ⟨sliceOf_eq r off len, ?inside, ?empty, ?full⟩
  case inside =>
    intro k hk
    refine ⟨?_, sliceOf_getElem? hk⟩
    omega
  case empty =>
    intro h
    apply List.eq_nil_of_length_eq_zero
    omega
  case full => omega

/-! ### Host memory (R60) -/

/-- The address of byte `i + 1` of a store is that of byte `i` of the store of its tail. -/
theorem storeAddr_succ (addr : Addr) (i : Nat) : storeAddr addr (i + 1) = storeAddr (addr + 1) i := by
  rw [storeAddr, storeAddr, Nat.add_comm i 1, BitVec.ofNat_add, ← BitVec.add_assoc]
  rfl

theorem storeAddr_zero (addr : Addr) : storeAddr addr 0 = addr.toNat := by
  simp [storeAddr]

/-- Two bytes of a store no longer than the address space have different addresses. -/
theorem storeAddr_injective {addr : Addr} {i j : Nat} (hi : i < 4294967296) (hj : j < 4294967296)
    (h : storeAddr addr i = storeAddr addr j) : i = j := by
  have hadd : BitVec.ofNat 32 i = BitVec.ofNat 32 j := (BitVec.add_right_inj addr).1 (BitVec.eq_of_toNat_eq h)
  have hmod := congrArg BitVec.toNat hadd
  rw [BitVec.toNat_ofNat, BitVec.toNat_ofNat] at hmod
  omega

/-- A store leaves every address alone that none of its bytes has. -/
theorem memRead_memWriteBytes_of_not_stored {m : List Host.Cell} {addr : Addr} {b : List Byte} {a : Nat}
    (hwf : Memory.wf m) (hnot : ∀ i, i < b.length → a ≠ storeAddr addr i) :
    memRead (memWriteBytes m addr b) a = memRead m a := by
  induction b generalizing m addr with
  | nil => rfl
  | cons x xs ih =>
    have hhead : a ≠ addr.toNat := storeAddr_zero addr ▸ hnot 0 (Nat.succ_pos _)
    have htail : ∀ i, i < xs.length → a ≠ storeAddr (addr + 1) i := fun i hi =>
      storeAddr_succ addr i ▸ hnot (i + 1) (Nat.succ_lt_succ hi)
    rw [memWriteBytes, ih (memWrite_wf x addr.isLt hwf) htail, memRead_memWrite _ _ _ _ hwf.1, if_neg hhead]

/-- A store no longer than the address space puts byte `i` at address `addr + i`. -/
theorem memRead_memWriteBytes_stored {m : List Host.Cell} {addr : Addr} {b : List Byte} {i : Nat}
    (hwf : Memory.wf m) (hlength : b.length ≤ 4294967296) (hi : i < b.length) :
    memRead (memWriteBytes m addr b) (storeAddr addr i) = b[i]? := by
  induction b generalizing m addr i with
  | nil => exact absurd hi (Nat.not_lt_zero i)
  | cons x xs ih =>
    rw [List.length_cons] at hlength hi
    have hwf' : Memory.wf (memWrite m addr.toNat x) := memWrite_wf x addr.isLt hwf
    cases i with
    | zero =>
      have hnot : ∀ j, j < xs.length → storeAddr addr 0 ≠ storeAddr (addr + 1) j := by
        intro j hj heq
        rw [← storeAddr_succ] at heq
        have := storeAddr_injective (by omega) (by omega) heq
        omega
      rw [memWriteBytes, memRead_memWriteBytes_of_not_stored hwf' hnot, memRead_memWrite _ _ _ _ hwf.1,
        if_pos (storeAddr_zero addr)]
      rfl
    | succ i =>
      rw [memWriteBytes, storeAddr_succ, ih hwf' (by omega) (by omega)]
      rfl

/-- Settles O56: one byte at a time, each at an address of its own. -/
theorem hostMemStores : Obligations.HostMemStores := by
  intro m addr b hwf hlength
  exact ⟨memWriteBytes_wf addr b hwf, fun i hi => memRead_memWriteBytes_stored hwf hlength hi,
    fun a hnot => memRead_memWriteBytes_of_not_stored hwf hnot⟩

/-! ### Addresses and sector sizes (R92, R93) -/

/-- The flag byte that selects the raw sector under the reference configuration is `0xE6` once `msf` is cleared. -/
theorem toByte_eq_raw_iff (f : ReadFlags) : { f with msf := false }.toByte = 0xE6 ↔
    f.header = true ∧ f.subheader = true ∧ f.data = true ∧ f.expectedType = 3 ∧ f.other = false := by
  constructor
  · intro h
    have hfields : { f with msf := false } = ReadFlags.ofByte 0xE6 := h ▸ (ReadFlags.ofByte_toByte _).symm
    obtain ⟨msf, expectedType, other, data, subheader, header⟩ := f
    cases hfields
    exact ⟨rfl, rfl, rfl, rfl, rfl⟩
  · obtain ⟨msf, expectedType, other, data, subheader, header⟩ := f
    rintro ⟨rfl, rfl, rfl, rfl, rfl⟩
    show ReadFlags.toByte ⟨false, 3, false, true, true, true⟩ = 0xE6
    decide

/-- Settles O23: three bytes make at most 24 bits, and at most 255 minutes, so neither sum wraps. -/
theorem addressAndSize : Obligations.AddressAndSize := by
  intro b f
  obtain ⟨b0, b1, b2⟩ := b
  refine ⟨?fad, ?msf, ?size⟩
  case fad =>
    rw [addrOf, if_neg Bool.false_ne_true, BitVec.toNat_ofNat]
    omega
  case msf =>
    rw [addrOf, if_pos rfl, BitVec.toNat_ofNat]
    omega
  case size =>
    have hraw : Cfg.ref.rawSectorFlags.contains { f with msf := false }.toByte = true ↔
        { f with msf := false }.toByte = 0xE6 := by simp [Cfg.ref]
    simp only [sectorSizeOf, hraw, toByte_eq_raw_iff]
    split
    · rfl
    · rfl

end Sys2Proof.Machine
end

section
/-! PROOFS. The transitions and the entry actions that end a command (R120, R121, R129 to R133). -/

namespace Sys2Proof.Machine

/-- R132 lists a transition out of the state the device is in. -/
theorem mapped_of_state {s : State} {p q : Proto} (hstate : s.drive.state = p) (hmapped : mapped p q = true) :
    mapped s.drive.state q = true := hstate ▸ hmapped

/-- The rows of the table of R132. -/
def transitionRows : List (Proto × Proto) :=
  [(.waitCommand, .processAtaCommand), (.processAtaCommand, .waitCommand), (.processAtaCommand, .waitPacket),
   (.processAtaCommand, .pioSendData), (.processAtaCommand, .pioEnd), (.waitPacket, .processPacketCommand),
   (.processPacketCommand, .processPacketDone), (.processPacketCommand, .pioSendData),
   (.processPacketCommand, .pioEnd), (.processPacketCommand, .pioGetData),
   (.processPacketCommand, .processSetMode), (.processPacketCommand, .readSectorPio),
   (.processPacketCommand, .readSectorDma), (.readSectorPio, .pioSendData), (.readSectorPio, .pioEnd),
   (.pioSendData, .pioEnd), (.pioSendData, .readSectorPio), (.pioGetData, .processSetMode),
   (.processSetMode, .pioEnd), (.pioEnd, .processPacketDone), (.readSectorDma, .processPacketDone),
   (.processPacketDone, .waitCommand)]

/-- The transition function lists the rows of the table and no other. -/
theorem mapped_eq_decide (p q : Proto) : mapped p q = decide ((p, q) ∈ transitionRows) := by
  cases p <;> cases q <;> rfl

/-- Settles O5: the move is made exactly when the transition function lists it. -/
theorem transitionTable : Obligations.TransitionTable := by
  intro s p
  refine ⟨?listed, ?unlisted⟩
  case listed => exact fun hrow => moveTo_next (by rw [mapped_eq_decide]; exact decide_eq_true hrow)
  case unlisted => exact fun hrow => moveTo_fault (by rw [mapped_eq_decide]; exact decide_eq_false hrow)

/-- Settles O6: every state named is one R132 lets the entry be entered from. -/
theorem commandEndEntries : Obligations.CommandEndEntries := by
  intro s
  refine ⟨?wait, ?done, ?pioEnd⟩
  case wait =>
    rintro (hstate | hstate)
    all_goals exact enterWaitCommand_next (mapped_of_state hstate rfl)
  case done =>
    rintro (hstate | hstate | hstate)
    all_goals exact enterProcessPacketDone_next (mapped_of_state hstate rfl)
  case pioEnd =>
    rintro (hstate | hstate | hstate | hstate | hstate)
    all_goals exact enterPioEnd_next (mapped_of_state hstate rfl)

end Sys2Proof.Machine
end

section
/-! PROOFS. The ATA commands but NOP and PACKET (R180 to R189), in the state where they run (R122). -/

namespace Sys2Proof.Machine

/-- The check bit of R181 is set exactly by the sense keys that are not harmless. -/
theorem not_ataHarmless (c : Cfg) (key : BitVec 4) :
    (!ataHarmless c key) = decide (key ∉ [c.skNoSense, c.skAborted, c.skUnitAttention]) := by
  simp [ataHarmless, Bool.beq_eq_decide_eq, Bool.and_assoc]

theorem ataHarmless_skNoSense (c : Cfg) : ataHarmless c c.skNoSense = true := by
  simp [ataHarmless]

/-- A completion without abort takes its check bit from the sense (R181). -/
theorem ataComplete_false_next {s : State} (hstate : s.drive.state = .processAtaCommand) :
    ataComplete false s = .next (ataDone false
      (decide (s.drive.sense.key ∉ [s.cfg.skNoSense, s.cfg.skAborted, s.cfg.skUnitAttention])) s) := by
  rw [ataComplete_next hstate, Bool.false_or, not_ataHarmless]

/-- A completion with abort sets the check bit whatever the sense (R181). -/
theorem ataComplete_true_next {s : State} (hstate : s.drive.state = .processAtaCommand) :
    ataComplete true s = .next (ataDone true true s) := by
  rw [ataComplete_next hstate, Bool.true_or]

/-- The disc status of a drive just reset: that of no disc, that of an open tray, or the one given. -/
theorem discStatusCode_discStatusFor (c : Cfg) (t : DiscType) (d : DiscStatus) :
    discStatusCode c (discStatusFor t d) = match t with
      | .noDisc => c.discStatusNodisc
      | .trayOpen => c.discStatusOpen
      | _ => discStatusCode c d := by
  cases t <;> rfl

/-- Both nibbles of Sector Number written from the disc type (R38). -/
theorem setDiscRegister_eq (d : DiscStatus) (s : State) : setDiscRegister d s = { s with
    drive.sectorNumber := discFormatCode s.cfg s.drive.discType ++
      (match s.drive.discType with
        | .noDisc => s.cfg.discStatusNodisc
        | .trayOpen => s.cfg.discStatusOpen
        | _ => discStatusCode s.cfg d) } := by
  rw [setDiscRegister, discStatusCode_discStatusFor]
  rfl

/-- The task-file bank at its defaults (R183): what SOFT_RESET writes before the disc register. -/
def softResetBank (s : State) : State := { s with
  drive.status.deviceFault := false
  drive.status.check := false
  drive.status.drq := false
  drive.error := { ili := false, eom := false, abort := false, mcr := false }
  drive.ireasonCod := false
  drive.features := 0
  drive.sectorCount := 0
  drive.driveSelect := 0
  drive.sense := ⟨s.cfg.skNoSense, 0, 0⟩
  drive.cdda.status := .noInfo
  drive.byteCount := s.cfg.sigByteCountHi ++ s.cfg.sigByteCountLo }

/-- SOFT_RESET writes the bank and the disc register, and its completion finds no sense (R183). -/
theorem execSoftReset_next {s : State} (hstate : s.drive.state = .processAtaCommand) :
    execSoftReset s = .next (ataDone false false (setDiscRegister .paused (softResetBank s))) := by
  have hharmless : (false || !ataHarmless s.cfg s.cfg.skNoSense) = false := by
    rw [ataHarmless_skNoSense]
    rfl
  calc execSoftReset s
      = ataComplete false (setDiscRegister .paused (softResetBank s)) := rfl
    _ = .next (ataDone false (false || !ataHarmless s.cfg s.cfg.skNoSense)
          (setDiscRegister .paused (softResetBank s))) := ataComplete_next hstate
    _ = _ := by rw [hharmless]

/-- Settles O8: the two nibbles of the disc register come from the disc type. -/
theorem softResetResult : Obligations.SoftResetResult := by
  intro s hstate
  calc exec .softReset s
      = .next (ataDone false false (setDiscRegister .paused (softResetBank s))) := execSoftReset_next hstate
    _ = _ := by
      rw [setDiscRegister_eq]
      rfl

/-- Settles O10: the block is as long as its size says, so the reply is the whole of it. -/
theorem identifyDeviceResult : Obligations.IdentifyDeviceResult := by
  intro s hstate hlength
  show stageReply s.cfg.identifyBlock s.cfg.identifyBytes .pioEnd _ = _
  rw [← hlength, not_ataHarmless]
  exact stageRecord_next (mapped_of_state hstate rfl) (mapped_of_state hstate rfl)

/-- EXECUTE_DIAGNOSTIC completes without the policy of R181 (R184). -/
theorem execExecuteDiagnostic_next {s : State} (hstate : s.drive.state = .processAtaCommand) :
    execExecuteDiagnostic s = .next (ataDone false false s) :=
  enterWaitCommand_next (mapped_of_state hstate rfl)

/-- Settles O11: only SET_FEATURES takes its check bit from the sense. -/
theorem synchronousResults : Obligations.SynchronousResults := by
  intro s hstate
  exact ⟨execExecuteDiagnostic_next hstate, ataComplete_false_next hstate, ataComplete_true_next hstate⟩

/-- Settles O12: both write the sense and complete with abort. -/
theorem ataErrorResult : Obligations.AtaErrorResult := by
  intro s b hstate
  exact ⟨ataComplete_true_next hstate, ataComplete_true_next hstate⟩

end Sys2Proof.Machine
end

section
/-! PROOFS. The packet commands that complete at once or stage a record (R201 to R216), in the state where they run
(R124). -/

namespace Sys2Proof.Machine

/-! ### The three ways a packet command of file 43 goes on -/

/-- A packet command ends (R130). -/
theorem packetCommand_done {s : State} (hstate : s.drive.state = .processPacketCommand) :
    enterProcessPacketDone s = .next (packetDone s) :=
  enterProcessPacketDone_next (mapped_processPacketDone hstate)

/-- A packet command stages the first bytes of a record (R134). -/
theorem packetCommand_reply {b : List Byte} {len : Nat} {s : State} (hstate : s.drive.state = .processPacketCommand)
    (hlen : len ≤ b.length) : stageReply b len .pioEnd s = .next (replied (b.take len) s) :=
  stageReply_next (mapped_of_state hstate rfl) (mapped_of_state hstate rfl) hlen

/-- A packet command stages a whole record (R134). -/
theorem packetCommand_record {r : List Byte} {s : State} (hstate : s.drive.state = .processPacketCommand) :
    stageRecord r s = .next (replied r s) :=
  stageRecord_next (mapped_of_state hstate rfl) (mapped_of_state hstate rfl)

/-! ### The commands -/

/-- Settles O13: the comparison is with the code of `busy`, and the command ends. -/
theorem testUnitResult : Obligations.TestUnitResult := fun _ hstate => packetCommand_done hstate

/-- Settles O15: both stage a slice of their record whole. -/
theorem reqStatModeResult : Obligations.ReqStatModeResult := by
  intro s offset length hstate
  constructor
  case left =>
    show stageRecord (sliceOf _ _ _) s.nextDraw = _
    rw [sliceOf_eq]
    exact packetCommand_record hstate
  case right =>
    show stageRecord (sliceOf _ _ _) s = _
    rw [sliceOf_eq, packetCommand_record hstate]

/-- Settles O16: a clamped count of one word or more opens a window, a smaller one ends the command. -/
theorem setModeResult : Obligations.SetModeResult := by
  intro s offset length hstate
  dsimp only
  split
  case isTrue hwords => exact stageReceive_window hstate hwords
  case isFalse hnone => exact stageReceive_empty hstate (Nat.lt_of_not_le hnone)

/-- Settles O17: the record is a slice from the start of the ten bytes, built before the sense is cleared. -/
theorem reqErrorResult : Obligations.ReqErrorResult := by
  intro s length hstate
  show stageRecord (sliceOf _ 0 _) _ = _
  rw [sliceOf_zero]
  exact packetCommand_record hstate

/-- GET_TOC stages the bytes of the answer that it is asked for (R206). -/
theorem execGetToc_next {s : State} (area : Bool) (req : Half) (hstate : s.drive.state = .processPacketCommand) :
    execGetToc area req s =
      .next (replied ((mediaAnswer s (.toc area) s.cfg.tocBytes).take req.toNat) s.nextDraw) := by
  have hlength : min req.toNat s.cfg.tocBytes ≤ (mediaAnswer s (.toc area) s.cfg.tocBytes).length := by
    rw [mediaAnswer_length]
    exact Nat.min_le_right _ _
  have hclamped : (mediaAnswer s (.toc area) s.cfg.tocBytes).take (min req.toNat s.cfg.tocBytes) =
      (mediaAnswer s (.toc area) s.cfg.tocBytes).take req.toNat := by
    rw [List.take_eq_take_iff, mediaAnswer_length, Nat.min_assoc, Nat.min_self]
  rw [← hclamped]
  exact packetCommand_reply hstate hlength

/-- REQ_SES stages its record cut to the length (R207). -/
theorem execReqSes_next {s : State} (session length : Byte) (hstate : s.drive.state = .processPacketCommand) :
    execReqSes session length s = .next (replied
      (((discStatusOf s.drive.sectorNumber).setWidth 8 ::
        mediaAnswer s (.session session) (s.cfg.sesInfoBytes - 1)).take length.toNat) s.nextDraw) := by
  show stageRecord (sliceOf _ 0 _) _ = _
  rw [sliceOf_zero]
  exact packetCommand_record hstate

/-- Settles O18: GET_TOC's bound by `TOC_BYTES` is the length of the answer; REQ_SES cuts its record. -/
theorem tocSessionResult : Obligations.TocSessionResult := by
  intro s area req session length hstate
  exact ⟨execGetToc_next area req hstate, execReqSes_next session length hstate⟩

/-- GET_SCD stages its record cut to the allocation length and to the reply buffer (R210). -/
theorem stageSubcode_next {record : List Byte} {alloc : Half} {s : State}
    (hstate : s.drive.state = .processPacketCommand) :
    stageSubcode record alloc s = .next (replied (record.take (min alloc.toNat s.cfg.scdBufBytes)) s) := by
  rw [stageSubcode, packetCommand_reply hstate (Nat.min_le_left _ _), Nat.min_comm record.length,
    ← List.take_eq_take_min]

/-- The format nibble of Sector Number is its value over 16. -/
theorem discFormatOf_eq_zero_iff (b : Byte) : discFormatOf b = 0 ↔ b.toNat / 16 = 0 := by
  rw [discFormatOf, ← BitVec.toNat_inj, BitVec.extractLsb'_toNat]
  simp [Nat.shiftRight_eq_div_pow]
  omega

/-- Settles O19: each record written out, with its length in the header. -/
theorem subcodeResult : Obligations.SubcodeResult := by
  intro s alloc format hstate
  refine ⟨?raw, ?q, ?mcn, ?formats⟩
  case raw => exact stageSubcode_next hstate
  case q =>
    refine Eq.trans (stageSubcode_next hstate) ?_
    simp only [qChannelRecord, discFormatOf_eq_zero_iff]
    rfl
  case mcn => exact stageSubcode_next hstate
  case formats => rfl

/-- Settles O20: each writes its sense and ends the command; the missing disc keeps the abort flag as it was. -/
theorem packetErrorResult : Obligations.PacketErrorResult := by
  intro s b hstate
  exact ⟨packetError_next hstate, packetError_next hstate, packetError_next hstate⟩

end Sys2Proof.Machine
end

section
/-! PROOFS. The packet commands that read sectors or drive the player (R230 to R236), in the state where they run (R124). -/

namespace Sys2Proof.Machine

/-! ### Reads (R230 to R232) -/

/-- The sectors left after `k` of `n` have been read. -/
theorem ofNat_sub_ofNat {n k : Nat} (hk : k ≤ n) : BitVec.ofNat 32 n - BitVec.ofNat 32 k = BitVec.ofNat 32 (n - k) := by
  rw [sub_eq_iff_eq_add, ← BitVec.ofNat_add, Nat.sub_add_cancel hk]

/-- The read request of a CD_READ of `n` sectors (R232). -/
def withReadRequest (flags : ReadFlags) (start : Addr3) (n : Nat) (s : State) : State := { s with drive.rr :=
  { startSector := addrOf flags.msf start, remaining := BitVec.ofNat 32 n, sectorSize := sectorSizeOf s.cfg flags } }

/-- The read request after the first `k` of `n` sectors (R26), with the draw their bytes took (log entry 9). -/
def afterFirstSectors (flags : ReadFlags) (start : Addr3) (n k : Nat) (s : State) : State := { s with
  draws := s.draws + 1
  drive.rr := {
    startSector := addrOf flags.msf start + BitVec.ofNat 32 k
    remaining := BitVec.ofNat 32 (n - k)
    sectorSize := sectorSizeOf s.cfg flags } }

theorem advanceRead_zero (s : State) : advanceRead 0 s = s := by
  simp only [advanceRead, BitVec.add_zero, BitVec.sub_zero]

/-- Reading `k` of the sectors asked for moves the read request on. -/
theorem advanceRead_withReadRequest (flags : ReadFlags) (start : Addr3) {n k : Nat} (hk : k ≤ n) (s : State) :
    advanceRead k (withReadRequest flags start n s).nextDraw = afterFirstSectors flags start n k s := by
  rw [afterFirstSectors, ← ofNat_sub_ofNat hk]
  rfl

/-- A read by PIO opens its first window, or ends at once if it asks for no sector (R127, R232). -/
theorem beginRead_pio {s : State} (flags : ReadFlags) (start : Addr3) {n : Nat} (hn : n < 4294967296) (hc : s.cfg.Wf)
    (hstate : s.drive.state = .processPacketCommand) (hfeatures : s.drive.features.getLsbD 0 = false) :
    beginRead flags start (BitVec.ofNat 32 n) s =
      if n = 0 then .next (replied [] (afterFirstSectors flags start n (min n s.cfg.pioBurstSectors) s))
      else .next (windowOpen
        (mediaSectors s (addrOf flags.msf start) (min n s.cfg.pioBurstSectors)
          (sectorBytes s.cfg (sectorSizeOf s.cfg flags)))
        (if s.cfg.pioBurstSectors < n then .readSectorPio else .pioEnd)
        (afterFirstSectors flags start n (min n s.cfg.pioBurstSectors) s)) := by
  have hpio : featuresDma s.drive.features = false := hfeatures
  have hmapped : mapped (withReadRequest flags start n s).drive.state .readSectorPio = true :=
    mapped_of_state hstate rfl
  have hremaining : (withReadRequest flags start n s).drive.rr.remaining.toNat = n := Nat.mod_eq_of_lt hn
  have hbegin : beginRead flags start (BitVec.ofNat 32 n) s = enterReadSectorPio (withReadRequest flags start n s) := by
    simp only [beginRead, hpio]
    rfl
  rw [hbegin, ← advanceRead_withReadRequest flags start (Nat.min_le_left n _)]
  split
  case isTrue hzero =>
    subst hzero
    rw [Nat.zero_min, advanceRead_zero]
    exact enterReadSectorPio_empty hmapped rfl
  case isFalse hpos =>
    have hne : (withReadRequest flags start n s).drive.rr.remaining ≠ 0 := by
      intro h0
      rw [h0] at hremaining
      exact hpos hremaining.symm
    rw [enterReadSectorPio_next (s := withReadRequest flags start n s) hc.2 hmapped hne, hremaining]
    rfl

/-- CD_READ begins a read of its count (R230). -/
theorem exec_cdRead (flags : ReadFlags) (start : Addr3) (count : BitVec 24) (s : State) :
    exec (.cdRead flags start count) s = beginRead flags start (BitVec.ofNat 32 count.toNat) s := by
  rw [BitVec.ofNat_toNat]
  rfl

/-- CD_READ2 begins a read of its count (R231). -/
theorem exec_cdRead2 (flags : ReadFlags) (start : Addr3) (count : Half) (s : State) :
    exec (.cdRead2 flags start count) s = beginRead flags start (BitVec.ofNat 32 count.toNat) s := by
  rw [BitVec.ofNat_toNat]
  rfl

/-- Settles O21: both commands begin the same read, by PIO if bit 0 of Features is clear. -/
theorem cdReadPioResult : Obligations.CdReadPioResult := by
  intro s flags start count count2 hc hstate hfeatures
  have hcount : count.toNat < 4294967296 := Nat.lt_trans count.isLt (by decide)
  have hcount2 : count2.toNat < 4294967296 := Nat.lt_trans count2.isLt (by decide)
  rw [exec_cdRead, exec_cdRead2]
  exact ⟨beginRead_pio flags start hcount hc hstate hfeatures, beginRead_pio flags start hcount2 hc hstate hfeatures⟩

/-- A read by DMA fills the cache for the first time (R128, R232, R251). -/
theorem beginRead_dma {s : State} (flags : ReadFlags) (start : Addr3) {n : Nat} (hn : n < 4294967296)
    (hstate : s.drive.state = .processPacketCommand) (hfeatures : s.drive.features.getLsbD 0 = true) :
    beginRead flags start (BitVec.ofNat 32 n) s =
      (let size := sectorBytes s.cfg (sectorSizeOf s.cfg flags)
       let k := min n s.cfg.cacheSectors
       .next { afterFirstSectors flags start n k s with
        drive.state := .readSectorDma
        drive.cache := {
          bytes := mediaSectors s (addrOf flags.msf start) k size ++ s.drive.cache.bytes.drop (k * size)
          rd := 0
          avail := k * size } }) := by
  have hdma : featuresDma s.drive.features = true := hfeatures
  have hmapped : mapped (withReadRequest flags start n s).drive.state .readSectorDma = true :=
    mapped_of_state hstate rfl
  have hremaining : (BitVec.ofNat 32 n).toNat = n := Nat.mod_eq_of_lt hn
  have hbegin : beginRead flags start (BitVec.ofNat 32 n) s = enterReadSectorDma (withReadRequest flags start n s) := by
    simp only [beginRead, hdma]
    rfl
  rw [hbegin, enterReadSectorDma, moveTo_next hmapped, andThen_next]
  dsimp only
  rw [← advanceRead_withReadRequest flags start (Nat.min_le_left n _)]
  simp only [fillCache, withReadRequest, hremaining, bufFill]
  rw [List.take_of_length_le (by simp)]
  rfl

/-- Settles O22: both commands begin the same read, by DMA if bit 0 of Features is set. -/
theorem cdReadDmaResult : Obligations.CdReadDmaResult := by
  intro s flags start count count2 hstate hfeatures
  have hcount : count.toNat < 4294967296 := Nat.lt_trans count.isLt (by decide)
  have hcount2 : count2.toNat < 4294967296 := Nat.lt_trans count2.isLt (by decide)
  rw [exec_cdRead, exec_cdRead2]
  exact ⟨beginRead_dma flags start hcount hstate hfeatures, beginRead_dma flags start hcount2 hstate hfeatures⟩

/-! ### The player (R233 to R236) -/

/-- The resume goes on at the position, or terminates past the end (R235). -/
theorem playResume_next {s : State} (hstate : s.drive.state = .processPacketCommand) :
    playResume s =
      if s.drive.cdda.currentFad.toNat ≤ s.drive.cdda.endFad.toNat then
        .next (packetDone (setDiscStatus .playing { s with drive.cdda.status := .playing }))
      else .next (packetDone (setDiscStatus .paused { s with drive.cdda.status := .terminated })) := by
  unfold playResume
  split
  · exact packetCommand_done hstate
  · exact packetCommand_done hstate

/-- Settles O24: CD_PLAY is the rule of the variant that its parameter type names, or the parameter error. -/
theorem cdPlayResult : Obligations.CdPlayResult := by
  intro s start stop rep ptype hstate
  have hplaying : ∀ msf, playFrom msf start rep stop s = _ := fun _ => packetCommand_done hstate
  refine ⟨hplaying false, hplaying true, playResume_next hstate, ?type⟩
  case type =>
    show execCdPlay ptype start rep stop s = _
    rw [execCdPlay, hplaying, hplaying]
    rfl

/-- Settles O25: each type ends the command with its own player and disc status. -/
theorem cdSeekResult : Obligations.CdSeekResult := by
  intro s target ptype hstate
  show execCdSeek ptype target s = _
  unfold execCdSeek
  by_cases h1 : ptype = 1
  · subst h1
    exact packetCommand_done hstate
  by_cases h2 : ptype = 2
  · subst h2
    exact packetCommand_done hstate
  rw [if_neg h1, if_neg h2, if_neg (not_or_intro h1 h2)]
  by_cases h3 : ptype = 3
  · rw [if_pos h3, if_pos h3]
    exact packetCommand_done hstate
  rw [if_neg h3, if_neg h3]
  by_cases h4 : ptype = 4
  · rw [if_pos h4, if_pos h4]
    exact packetCommand_done hstate
  · rw [if_neg h4, if_neg h4]
    rfl

end Sys2Proof.Machine
end

section
/-! PROOFS. The host port accesses but the Features write and the Data port (R150, R153 to R164). -/

namespace Sys2Proof.Machine

/-! ### The two bytes of a word, in numbers -/

theorem toNat_append_bytes (hi lo : Byte) : (hi ++ lo : Half).toNat = hi.toNat * 256 + lo.toNat := by
  rw [BitVec.toNat_append, ← Nat.shiftLeft_add_eq_or_of_lt lo.isLt, Nat.shiftLeft_eq]

theorem toNat_lowByte (v : Half) : (v.extractLsb' 0 8).toNat = v.toNat % 256 := by
  rw [BitVec.extractLsb'_toNat, Nat.shiftRight_zero]

theorem toNat_highByte (v : Half) : (v.extractLsb' 8 8).toNat = v.toNat / 256 := by
  have hv := v.isLt
  rw [BitVec.extractLsb'_toNat, Nat.shiftRight_eq_div_pow]
  omega

/-- A word with its low byte replaced (R158). -/
theorem replace_lowByte (h : Half) (v : BitVec 32) :
    (h.extractLsb' 8 8 ++ (v.setWidth 8 : Byte) : Half) = BitVec.ofNat 16 (h.toNat / 256 * 256 + v.toNat % 256) := by
  have hh := h.isLt
  apply BitVec.eq_of_toNat_eq
  rw [toNat_append_bytes, toNat_highByte, BitVec.toNat_setWidth, BitVec.toNat_ofNat]
  omega

/-- A word with its high byte replaced (R159). -/
theorem replace_highByte (h : Half) (v : BitVec 32) :
    ((v.setWidth 8 : Byte) ++ h.extractLsb' 0 8 : Half) = BitVec.ofNat 16 (v.toNat % 256 * 256 + h.toNat % 256) := by
  apply BitVec.eq_of_toNat_eq
  rw [toNat_append_bytes, toNat_lowByte, BitVec.toNat_setWidth, BitVec.toNat_ofNat]
  omega

/-- The low byte of a word, zero-extended. -/
theorem setWidth_lowByte (h : Half) : (h.extractLsb' 0 8).setWidth 16 = BitVec.ofNat 16 (h.toNat % 256) := by
  rw [← toNat_lowByte, BitVec.ofNat_toNat]

/-- The high byte of a word, zero-extended. -/
theorem setWidth_highByte (h : Half) : (h.extractLsb' 8 8).setWidth 16 = BitVec.ofNat 16 (h.toNat / 256) := by
  rw [← toNat_highByte, BitVec.ofNat_toNat]

/-! ### The port rules (R153, R155 to R164) -/

theorem exec_r8Error (w : Width) (s : State) : exec (.r8Error w) s =
    portRead w s fun s => (errorByte s.drive.sense.key s.drive.error, s) := rfl

theorem exec_r8InterruptReason (w : Width) (s : State) : exec (.r8InterruptReason w) s =
    portRead w s fun s => (ireasonByte s.drive.ireasonCod (Config.drawByte s.draws 0), s.nextDraw) := rfl

theorem exec_r8SectorCount (w : Width) (s : State) : exec (.r8SectorCount w) s =
    portRead w s fun s => (s.drive.sectorCount, s) := rfl

theorem exec_r8SectorNumber (w : Width) (s : State) : exec (.r8SectorNumber w) s =
    portRead w s fun s => (s.drive.sectorNumber, s) := rfl

theorem exec_r8ByteCountLow (w : Width) (s : State) : exec (.r8ByteCountLow w) s =
    portRead w s fun s => (s.drive.byteCount.extractLsb' 0 8, s) := rfl

theorem exec_r8ByteCountHigh (w : Width) (s : State) : exec (.r8ByteCountHigh w) s =
    portRead w s fun s => (s.drive.byteCount.extractLsb' 8 8, s) := rfl

theorem exec_r8DriveSelect (w : Width) (s : State) : exec (.r8DriveSelect w) s =
    portRead w s fun s => (s.drive.driveSelect, s) := rfl

theorem exec_r8Status (w : Width) (s : State) : exec (.r8Status w) s =
    portRead w s fun s => (statusByte s.drive.status (Config.drawByte s.draws 0),
      cancelLine .dmaComplete (cancelLine .commandComplete s.nextDraw)) := rfl

theorem exec_r8AltStatus (w : Width) (s : State) : exec (.r8AltStatus w) s =
    portRead w s fun s => (statusByte s.drive.status (Config.drawByte s.draws 0), s.nextDraw) := rfl

theorem exec_w8SectorCount (w : Width) (v : BitVec 32) (s : State) : exec (.w8SectorCount w v) s =
    portWrite w v s fun b s => .next { s with drive.sectorCount := b } := rfl

theorem exec_w8SectorNumber (w : Width) (v : BitVec 32) (s : State) : exec (.w8SectorNumber w v) s =
    portWrite w v s fun b s => .next { s with drive.sectorNumber := b } := rfl

theorem exec_w8ByteCountLow (w : Width) (v : BitVec 32) (s : State) : exec (.w8ByteCountLow w v) s =
    portWrite w v s fun b s => .next { s with
      drive.byteCount := (s.drive.byteCount.extractLsb' 8 8 ++ b : BitVec 16) } := rfl

theorem exec_w8ByteCountHigh (w : Width) (v : BitVec 32) (s : State) : exec (.w8ByteCountHigh w v) s =
    portWrite w v s fun b s => .next { s with
      drive.byteCount := (b ++ s.drive.byteCount.extractLsb' 0 8 : BitVec 16) } := rfl

theorem exec_w8Command (w : Width) (v : BitVec 32) (s : State) : exec (.w8Command w v) s =
    portWrite w v s fun b s =>
      if s.drive.state = .waitCommand then enterProcessAtaCommand { s with drive.ataCommand := b }
      else .fault .unmappedTransition := rfl

theorem exec_w8DeviceControl (w : Width) (v : BitVec 32) (s : State) : exec (.w8DeviceControl w v) s =
    portWrite w v s fun _ s => ignoredStep s := rfl

/-! ### Writes -/

/-- Settles O27: past the width check and the gate, each write hands bits 7:0 to a port rule that only stores them. -/
theorem registerWrites : Obligations.RegisterWrites := by
  intro s w v hwidth hgate
  rw [exec_w8SectorCount, exec_w8SectorNumber, exec_w8ByteCountLow, exec_w8ByteCountHigh, ← replace_lowByte,
    ← replace_highByte]
  exact ⟨portWrite_next hwidth hgate, portWrite_next hwidth hgate, portWrite_next hwidth hgate,
    portWrite_next hwidth hgate⟩

/-- Settles O29: the write passes the width check alone. -/
theorem driveSelectAccess : Obligations.DriveSelectAccess := by
  intro s w v hwidth
  exact ⟨fun hgate => portRead_next hwidth hgate, if_neg hwidth⟩

/-- Settles O31: with the gate closed or open, the write is ignored. -/
theorem deviceControlWrite : Obligations.DeviceControlWrite := by
  intro s w v hwidth
  show portWrite w v s (fun _ t => ignoredStep t) = ignoredStep s
  rw [portWrite, if_neg hwidth, ite_self]

/-! ### Reads -/

/-- Bit 0 of the Interrupt Reason byte is `cod`, whatever is drawn (R155). -/
theorem ireasonByte_cod (cod : Bool) (draw : Byte) : ((ireasonByte cod draw).setWidth 16).getLsbD 0 = cod := by
  rw [ireasonByte, BitVec.getLsbD_setWidth, BitVec.getLsbD_append]
  simp

theorem setWidth_byte_lt (b : Byte) : (b.setWidth 16 : Half).toNat < 256 := by
  have hb := b.isLt
  rw [BitVec.toNat_setWidth]
  omega

/-- Settles O28: each port rule gives its register and leaves the state, but for the draw of Interrupt Reason. -/
theorem registerReads : Obligations.RegisterReads := by
  intro s w hwidth hgate
  refine ⟨portRead_next hwidth hgate, portRead_next hwidth hgate, portRead_next hwidth hgate, ?low, ?high, ?reason⟩
  case low =>
    rw [← setWidth_lowByte]
    exact portRead_next hwidth hgate
  case high =>
    rw [← setWidth_highByte]
    exact portRead_next hwidth hgate
  case reason =>
    rw [exec_r8InterruptReason, portRead_next hwidth hgate]
    exact ⟨_, ireasonByte_cod _ _, setWidth_byte_lt _, rfl⟩

/-- One bit of a byte as a field of one bit. -/
theorem extractLsb'_one (b : Byte) (i : Nat) : b.extractLsb' i 1 = BitVec.ofBool (b.getLsbD i) := by
  ext j hj
  obtain rfl : j = 0 := by omega
  simp

/-- The Status byte has three drawn bits, those of one free byte. -/
theorem statusByte_eq (st : Status) (draw : Byte) : statusByte st draw =
    (BitVec.ofBool st.busy ++ BitVec.ofBool st.ready ++ BitVec.ofBool st.deviceFault ++
      BitVec.ofBool (draw.getLsbD 4) ++ BitVec.ofBool st.drq ++ BitVec.ofBool (draw.getLsbD 2) ++
      BitVec.ofBool (draw.getLsbD 1) ++ BitVec.ofBool st.check : BitVec 8) := by
  rw [statusByte, extractLsb'_one, extractLsb'_one, extractLsb'_one]

/-- Settles O30: both reads answer the same byte, and the Status read cancels the lines one after the other. -/
theorem statusReads : Obligations.StatusReads := by
  intro s w hwidth hgate
  dsimp only
  rw [exec_r8Status, exec_r8AltStatus, portRead_next hwidth hgate, portRead_next hwidth hgate, statusByte_eq]
  refine ⟨_, _, _, ?status, rfl⟩
  case status => simp [cancelLine, State.emit, State.nextDraw]

/-! ### The gates (R53, R150) -/

/-- Behind the closed gate a read of an 8-bit port is ignored. -/
theorem portRead_gated {w : Width} {s : State} {k : State → Byte × State} (hwidth : w ≠ .w32)
    (hgate : slaveSelected s.drive.driveSelect = true) : portRead w s k = ignoredRead w s := by
  rw [portRead, if_neg hwidth, if_pos hgate]

/-- Behind the closed gate a write of an 8-bit port is ignored. -/
theorem portWrite_gated {w : Width} {v : BitVec 32} {s : State} {k : Byte → State → Res} (hwidth : w ≠ .w32)
    (hgate : slaveSelected s.drive.driveSelect = true) : portWrite w v s k = ignoredStep s := by
  rw [portWrite, if_neg hwidth, if_pos hgate]

/-- Behind the closed gate an access to the Data port is ignored. -/
theorem dataAccess_gated {s : State} {g k : State → Res} (hgate : slaveSelected s.drive.driveSelect = true) :
    dataAccess .w16 s g k = g s := by
  rw [dataAccess, if_neg (not_not_intro rfl), if_pos hgate]

/-- An ignored read, written out. -/
theorem ignoredRead_eq (w : Width) (s : State) :
    ignoredRead w s = .next { s with events := s.events ++ [.ignored, .readValue w 0] } := by
  simp [ignoredRead, State.emit]

/-- Settles O37: the gate comes before every port rule but that of the Drive Select write. -/
theorem slaveGate : Obligations.SlaveGate := by
  intro s w v hgate hwidth
  refine ⟨?reads, ?dataRead, ?writes⟩
  case reads =>
    rw [← ignoredRead_eq]
    simp only [List.forall_mem_cons, List.not_mem_nil, IsEmpty.forall_iff, implies_true, and_self, exec_r8Error,
      exec_r8InterruptReason, exec_r8SectorCount, exec_r8SectorNumber, exec_r8ByteCountLow, exec_r8ByteCountHigh,
      exec_r8DriveSelect, exec_r8Status, exec_r8AltStatus, portRead_gated hwidth hgate]
  case dataRead =>
    rw [← ignoredRead_eq]
    exact dataAccess_gated hgate
  case writes =>
    show ∀ i ∈ _, exec i s = ignoredStep s
    simp only [List.forall_mem_cons, List.not_mem_nil, IsEmpty.forall_iff, implies_true, and_true, exec_w8Features,
      execW8Features, exec_w8SectorCount, exec_w8SectorNumber, exec_w8ByteCountLow, exec_w8ByteCountHigh,
      exec_w8Command, exec_w8DeviceControl, portWrite_gated hwidth hgate]
    exact dataAccess_gated hgate

/-- Settles O38: the width is looked at first by every port. -/
theorem badWidth : Obligations.BadWidth := by
  intro s w v
  refine ⟨fun hwidth => ⟨if_pos hwidth, if_pos hwidth⟩, ?ports⟩
  case ports =>
    simp only [List.forall_mem_cons, List.not_mem_nil, IsEmpty.forall_iff, implies_true, and_true]
    refine ⟨?_, ?_, ?_, ?_, ?_, ?_, ?_, ?_, ?_, ?_, ?_, ?_, ?_, ?_, ?_, ?_, ?_⟩
    all_goals rfl

end Sys2Proof.Machine
end

section
/-! PROOFS. The agents (R252, R254, R280 to R282, R340 to R344) and the step that runs them (R2, R62). -/

namespace Sys2Proof.Machine

/-- Settles O39: the two guards answer the same. -/
theorem dmaStartResult : Obligations.DmaStartResult := by
  intro s
  show execDmaStart s = _
  unfold execDmaStart
  by_cases henable : s.dma.enable = false
  · rw [if_pos henable, if_pos (.inl henable)]
    rfl
  by_cases hstart : s.dma.start = true
  · rw [if_neg henable, if_pos hstart, if_pos (.inr hstart)]
    rfl
  · rw [if_neg henable, if_neg hstart, if_neg (not_or_intro henable hstart)]

/-- A tick that is scheduled but may not run unschedules itself (R254). -/
theorem execTickDma_stopped {s : State} (hscheduled : s.drive.dmaScheduled = true)
    (hguard : s.dma.start = false ∨ s.dma.enable = false ∨ s.drive.state ≠ .readSectorDma ∨
      s.dma.direction ≠ s.cfg.dmaToHost) : execTickDma s = .next (dmaUnschedule s) := by
  rw [execTickDma, if_neg (by simp [hscheduled])]
  by_cases hrunning : s.dma.start = false ∨ s.dma.enable = false
  · rw [if_pos hrunning]
  rw [if_neg hrunning]
  by_cases hstate : s.drive.state ≠ .readSectorDma
  · rw [if_pos hstate]
  rw [if_neg hstate, if_pos]
  tauto

/-- Settles O41: with no tick scheduled there is no step, and each guard answers the same. -/
theorem dmaTickStops : Obligations.DmaTickStops := by
  intro s
  exact ⟨fun hscheduled => if_pos hscheduled, fun hscheduled hguard => execTickDma_stopped hscheduled hguard⟩

/-- Settles O43: the tick looks at the player's status first. -/
theorem audioSilence : Obligations.AudioSilence := fun _ hstatus => if_neg hstatus

/-- The position moved on by one sector, and the number of the next draw (R280). -/
def audioAdvanced (s : State) : State := { s.nextDraw with drive.cdda.currentFad := s.drive.cdda.currentFad + 1 }

/-- The tick of a playing player: the sector at the position, after the position has moved on and, at the end, the pass
has ended (R280). -/
theorem execTickAudio_playing {s : State} (hplaying : s.drive.cdda.status = .playing) : execTickAudio s =
    .next (State.emit
      (if s.drive.cdda.endFad.toNat ≤ (s.drive.cdda.currentFad + 1).toNat then audioEndReached (audioAdvanced s)
        else audioAdvanced s)
      (.audioSector (mediaSectors s s.drive.cdda.currentFad 1 s.cfg.sectorAudio))) := by
  rw [execTickAudio, if_pos hplaying]
  rfl

/-- Settles O44: before the end, at the last end, and at an end with repeat. -/
theorem audioPlays : Obligations.AudioPlays := by
  intro s hplaying
  dsimp only
  show execTickAudio s = _
  rw [execTickAudio_playing hplaying]
  by_cases hbefore : (s.drive.cdda.currentFad + 1).toNat < s.drive.cdda.endFad.toNat
  case pos =>
    rw [if_pos hbefore, if_neg (Nat.not_le_of_lt hbefore)]
    rfl
  case neg =>
    rw [if_neg hbefore, if_pos (Nat.le_of_not_lt hbefore)]
    rw [show audioEndReached (audioAdvanced s) = _ from endReached (audioAdvanced s)]
    by_cases hlast : s.drive.cdda.repeatCount = 0
    case pos =>
      rw [if_pos hlast, if_pos (by exact hlast)]
      rfl
    case neg =>
      rw [if_neg hlast, if_neg (by exact hlast), ite_not]
      rfl

/-- The disc register that a reset or a disc change writes (R38, R344). -/
theorem sectorNumberOf_discStatusFor (c : Cfg) (t : DiscType) (d : DiscStatus) :
    sectorNumberOf (discFormatCode c t) (discStatusCode c (discStatusFor t d)) = discFormatCode c t ++
      (match t with
        | .noDisc => c.discStatusNodisc
        | .trayOpen => c.discStatusOpen
        | _ => discStatusCode c d) := by
  rw [discStatusCode_discStatusFor]
  rfl

/-- The unit attention writes the sense, if the configuration has it (R342, R344). -/
theorem unitAttention_eq (s : State) : unitAttention s = { s with
    drive.sense := if s.cfg.discChangeSetsUnitAttention then ⟨s.cfg.skUnitAttention, s.cfg.ascMediumChanged, 0⟩
      else s.drive.sense } := by
  unfold unitAttention
  split
  · rfl
  · rfl

/-- Settles O46: the pending bit is the guard; the disc register is that of the disc type just read. -/
theorem swapDone : Obligations.SwapDone := by
  intro s
  refine ⟨fun hpending => if_pos hpending, fun hpending => ?_⟩
  show execTickSwap s = _
  rw [execTickSwap, if_neg (by simp [hpending]), setDiscRegister_eq, unitAttention_eq]
  rfl

/-- Settles O47: the reset is by field; the disc register is that of the backend's disc type. -/
theorem hardResetResult : Obligations.HardResetResult := by
  intro s
  show Host.Outcome.next { s with drive := resetDrive s.cfg s.media.discType } = _
  rw [resetDrive, sectorNumberOf_discStatusFor]
  rfl

/-- Settles O48: the reset is the same in all three; the tray events then set the unit attention. -/
theorem discEvents : Obligations.DiscEvents := by
  intro s m
  refine ⟨?tray, rfl, ?swap⟩
  case tray =>
    show Host.Outcome.next (unitAttention _) = _
    rw [unitAttention_eq]
    rfl
  case swap =>
    have hformat : discFormatOf (resetDrive s.cfg m.discType).sectorNumber = discFormatCode s.cfg m.discType :=
      BitVec.extractLsb'_append_eq_left
    rw [← hformat]
    rfl

/-- Settles O50: every clause is decided on the reset values. -/
theorem resetMeetsInv : Obligations.ResetMeetsInv :=
  ⟨by decide, by decide, rfl, ⟨rfl, rfl, rfl⟩, by decide, by decide, by decide, by decide, by decide⟩

/-! ### The step (R2, R62) -/

/-- Settles O49: the queue gives its first input, which decodes to an operation, to a write of the DMA registers, or to
an access that no port takes. -/
theorem stepRunsDecoded : Obligations.StepRunsDecoded := by
  intro s x rest
  refine ⟨?decoded, ?idle, ?dmaSet, ?unmappedRead, ?unmappedWrite⟩
  case decoded =>
    intro i hpending hdecode
    have hinput : decodeInput s.cfg x = .ok i := hdecode
    rw [step_of_pending hpending, runInput, takeInput_cfg, hinput]
    rfl
  case idle => exact step_of_idle
  case dmaSet =>
    intro a l d hpending
    exact step_of_pending hpending
  case unmappedRead =>
    intro w a hpending hport hwidth
    have hinput : decodeInput s.cfg (.read w a) = .error (.unmappedAccess w .read) := by
      rw [decodeInput, hport]
      rfl
    rw [step_of_pending hpending, runInput, takeInput_cfg, hinput]
    exact if_neg hwidth
  case unmappedWrite =>
    intro w a v hpending hport hwidth
    have hinput : decodeInput s.cfg (.write w a v) = .error (.unmappedAccess w .write) := by
      rw [decodeInput, hport]
      rfl
    rw [step_of_pending hpending, runInput, takeInput_cfg, hinput]
    exact if_neg hwidth

end Sys2Proof.Machine
end

section
/-! PROOFS. The Data port (R151, R152) and the Command port (R162): what each access does past the gates, and the
command it runs. -/

namespace Sys2Proof.Machine

/-! ### The continuation of a PIO transfer (R25) -/

theorem enterContinuation_pioEnd {s : State} (h : s.drive.pio.nextState = .pioEnd) :
    enterContinuation s = enterPioEnd s := by rw [enterContinuation, h]

theorem enterContinuation_readSectorPio {s : State} (h : s.drive.pio.nextState = .readSectorPio) :
    enterContinuation s = enterReadSectorPio s := by rw [enterContinuation, h]

theorem enterContinuation_processSetMode {s : State} (h : s.drive.pio.nextState = .processSetMode) :
    enterContinuation s = enterProcessSetMode s := by rw [enterContinuation, h]

/-! ### Data reads (R151) -/

/-- The state after a Data read has taken a word of the window (R151). -/
def wordTaken (s : State) : State :=
  { s with drive.pio.index := s.drive.pio.index + 1, drive.byteCount := s.drive.byteCount - 2 }

/-- The word a Data read delivers (R55, R151). -/
def nextWord (s : State) : Half := wordAt s.drive.pio.data s.drive.pio.index

/-- Past the width check and the gate a Data read runs its port rule. -/
theorem exec_r16Data_open {s : State} (hgate : slaveSelected s.drive.driveSelect = false) :
    exec (.r16Data .w16) s = dataRead .w16 s := dataAccess_next hgate

/-- A word before the last of its window. -/
theorem dataRead_before_last {s : State} (hstate : s.drive.state = .pioSendData)
    (hindex : s.drive.pio.index + 1 < s.drive.pio.size) :
    dataRead .w16 s = .next ((wordTaken s).emit (.readValue .w16 (nextWord s))) := by
  have hwords : s.drive.state = .pioSendData ∧ s.drive.pio.index < s.drive.pio.size := ⟨hstate, by omega⟩
  rw [dataRead, if_pos hwords]
  dsimp only
  rw [if_neg (by omega)]
  rfl

/-- The last word of a window, whose continuation is entered before the word is answered. -/
theorem dataRead_last {s : State} (hstate : s.drive.state = .pioSendData)
    (hindex : s.drive.pio.index + 1 = s.drive.pio.size) (hnext : s.drive.pio.nextState ≠ .pioSendData) :
    dataRead .w16 s = andThen (enterContinuation (wordTaken s))
      fun t => .next (t.emit (.readValue .w16 (nextWord s))) := by
  have hwords : s.drive.state = .pioSendData ∧ s.drive.pio.index < s.drive.pio.size := ⟨hstate, by omega⟩
  rw [dataRead, if_pos hwords]
  dsimp only
  rw [if_pos hindex, if_neg hnext]
  rfl

/-- The last word of a reply ends the command. -/
theorem dataRead_last_pioEnd {s : State} (hstate : s.drive.state = .pioSendData)
    (hindex : s.drive.pio.index + 1 = s.drive.pio.size) (hnext : s.drive.pio.nextState = .pioEnd) :
    dataRead .w16 s = .next ((packetDone { wordTaken s with drive.status.drq := false }).emit
      (.readValue .w16 (nextWord s))) := by
  rw [dataRead_last hstate hindex (by rw [hnext]; decide), enterContinuation_pioEnd (s := wordTaken s) hnext,
    enterPioEnd_next (s := wordTaken s) (mapped_of_state hstate rfl)]
  rfl

/-- The last word of a window of sectors opens the next window, if sectors are left. -/
theorem dataRead_last_readSectorPio {s : State} (hc : s.cfg.Fits) (hstate : s.drive.state = .pioSendData)
    (hindex : s.drive.pio.index + 1 = s.drive.pio.size) (hnext : s.drive.pio.nextState = .readSectorPio)
    (hremaining : s.drive.rr.remaining ≠ 0) :
    dataRead .w16 s = .next (State.emit (windowOpen
      (mediaSectors s s.drive.rr.startSector (min s.drive.rr.remaining.toNat s.cfg.pioBurstSectors)
        (sectorBytes s.cfg s.drive.rr.sectorSize))
      (if s.drive.rr.remaining.toNat > s.cfg.pioBurstSectors then .readSectorPio else .pioEnd)
      (advanceRead (min s.drive.rr.remaining.toNat s.cfg.pioBurstSectors) (wordTaken s).nextDraw))
      (.readValue .w16 (nextWord s))) := by
  rw [dataRead_last hstate hindex (by rw [hnext]; decide), enterContinuation_readSectorPio (s := wordTaken s) hnext,
    enterReadSectorPio_next (s := wordTaken s) hc (mapped_of_state hstate rfl) hremaining]
  rfl

/-- The last word of a window of sectors ends the command, if no sector is left. -/
theorem dataRead_last_noSector {s : State} (hstate : s.drive.state = .pioSendData)
    (hindex : s.drive.pio.index + 1 = s.drive.pio.size) (hnext : s.drive.pio.nextState = .readSectorPio)
    (hremaining : s.drive.rr.remaining = 0) :
    dataRead .w16 s = .next ((replied [] (wordTaken s).nextDraw).emit (.readValue .w16 (nextWord s))) := by
  rw [dataRead_last hstate hindex (by rw [hnext]; decide), enterContinuation_readSectorPio (s := wordTaken s) hnext,
    enterReadSectorPio_empty (s := wordTaken s) (mapped_of_state hstate rfl) hremaining]
  rfl

/-- Outside a window a read is ignored. -/
theorem dataRead_outside {s : State} (houtside : s.drive.state ≠ .pioSendData ∨ s.drive.pio.size ≤ s.drive.pio.index) :
    dataRead .w16 s = ignoredRead .w16 s := by
  have hnot : ¬ (s.drive.state = .pioSendData ∧ s.drive.pio.index < s.drive.pio.size) := by
    rintro ⟨hstate, hindex⟩
    exact houtside.elim (fun h => h hstate) fun h => Nat.not_lt_of_le h hindex
  rw [dataRead, if_neg hnot]
  rfl

/-- Settles O32: a word before the last, the three ends of a window, and a read outside a window. -/
theorem dataReadResult : Obligations.DataReadResult := by
  intro s hgate
  dsimp only
  rw [exec_r16Data_open hgate]
  refine ⟨?before, ?reply, ?sectors, ?noSector, ?outside⟩
  case before => exact fun hstate hindex => dataRead_before_last hstate hindex
  case reply => exact fun hstate hindex hnext => dataRead_last_pioEnd hstate hindex hnext
  case sectors =>
    exact fun hstate hindex hnext hremaining hc => dataRead_last_readSectorPio hc.2 hstate hindex hnext hremaining
  case noSector => exact fun hstate hindex hnext hremaining => dataRead_last_noSector hstate hindex hnext hremaining
  case outside =>
    rw [← ignoredRead_eq]
    exact dataRead_outside

/-! ### Data writes (R152) -/

/-- The state after a Data write has stored a word of a packet (R152). -/
def packetWordStored (v : Half) (s : State) : State := { s with drive.packet := {
  bytes := setWord s.drive.packet.bytes s.drive.packet.index v
  index := s.drive.packet.index + 1 } }

/-- The state after a Data write has stored a word of SET_MODE's data (R152). -/
def modeWordStored (v : Half) (s : State) : State := { s with
  drive.pio.data := setWord s.drive.pio.data s.drive.pio.index v
  drive.pio.index := s.drive.pio.index + 1 }

/-- Past the width check and the gate a Data write runs its port rule. -/
theorem exec_w16Data_open {s : State} (v : BitVec 32) (hgate : slaveSelected s.drive.driveSelect = false) :
    exec (.w16Data .w16 v) s = dataWrite (v.setWidth 16) s := dataAccess_next hgate

/-- A packet word before the last. -/
theorem dataWrite_packet {s : State} (v : Half) (hstate : s.drive.state = .waitPacket)
    (hindex : s.drive.packet.index + 1 ≠ s.cfg.packetBytes / 2) : dataWrite v s = .next (packetWordStored v s) := by
  rw [dataWrite, if_pos hstate]
  exact if_neg hindex

/-- The last packet word runs the packet's command. -/
theorem dataWrite_packet_last {s : State} (v : Half) (hstate : s.drive.state = .waitPacket)
    (hindex : s.drive.packet.index + 1 = s.cfg.packetBytes / 2) :
    dataWrite v s = enterProcessPacketCommand (packetWordStored v s) := by
  rw [dataWrite, if_pos hstate]
  exact if_pos hindex

/-- A word of SET_MODE's data before the last. -/
theorem dataWrite_mode {s : State} (v : Half) (hstate : s.drive.state = .pioGetData)
    (hindex : s.drive.pio.index + 1 ≠ s.drive.pio.size) : dataWrite v s = .next (modeWordStored v s) := by
  rw [dataWrite, if_neg (by rw [hstate]; decide), if_pos hstate]
  exact if_neg hindex

/-- The last word of SET_MODE's data goes on to `ProcessSetMode`, which ends the command. -/
theorem dataWrite_mode_last {s : State} (v : Half) (hstate : s.drive.state = .pioGetData)
    (hindex : s.drive.pio.index + 1 = s.drive.pio.size) (hnext : s.drive.pio.nextState = .processSetMode) :
    dataWrite v s = .next (packetDone { modeWordStored v s with
      drive.modeBlock := blockReplace s.drive.modeBlock
        (bufSlice (setWord s.drive.pio.data s.drive.pio.index v) 0 (2 * s.drive.pio.size))
        s.drive.setModeOffset (2 * s.drive.pio.size)
      drive.status.drq := false }) := by
  have hother : s.drive.pio.nextState ≠ .pioGetData := by
    rw [hnext]
    decide
  rw [dataWrite, if_neg (by rw [hstate]; decide), if_pos hstate]
  dsimp only
  rw [if_pos hindex, if_neg hother]
  exact (enterContinuation_processSetMode (s := modeWordStored v s) hnext).trans
    (enterProcessSetMode_next (mapped_of_state hstate rfl))

/-- In any other state a write is ignored. -/
theorem dataWrite_ignored {s : State} (v : Half) (hpacket : s.drive.state ≠ .waitPacket)
    (hmode : s.drive.state ≠ .pioGetData) : dataWrite v s = ignoredStep s := by
  rw [dataWrite, if_neg hpacket, if_neg hmode]

/-- Storing a word inside a buffer replaces its two bytes. -/
theorem setWord_eq_set {b : List Byte} {k : Nat} (hk : 2 * k + 1 < b.length) (v : Half) :
    setWord b k v = (b.set (2 * k) (v.extractLsb' 0 8)).set (2 * k + 1) (v.extractLsb' 8 8) := by
  have hlow : 2 * k < b.length := by omega
  rw [setWord, bufSet, bufSet, if_pos hlow, List.length_set, if_pos hk]

/-- Replacing bytes inside a block, byte by byte. -/
theorem blockReplace_getD {block new : List Byte} {off m : Nat} (hnew : new.length = m)
    (hfits : off + m ≤ block.length) (j : Nat) : (blockReplace block new off m).getD j 0 =
      if off ≤ j ∧ j < off + m then new.getD (j - off) 0 else block.getD j 0 := by
  simp only [blockReplace, List.getD_eq_getElem?_getD, List.getElem?_append, List.length_append, List.length_take,
    List.getElem?_take, List.getElem?_drop, hnew]
  grind

/-- A byte of a part of a buffer. -/
theorem bufSlice_getD {b : List Byte} {a n i : Nat} (hi : i < n) : (bufSlice b a n).getD i 0 = b.getD (a + i) 0 := by
  rw [List.getD_eq_getElem?_getD, bufSlice_getElem?, if_pos hi, Option.getD_some]

/-- Settles O33: the words of a packet before the last, the words of SET_MODE's data, and every other state. -/
theorem dataWriteResult : Obligations.DataWriteResult := by
  intro s v hgate
  dsimp only
  rw [exec_w16Data_open v hgate]
  refine ⟨?packet, ?mode, ?ignored⟩
  case packet =>
    intro hstate hindex hlength
    rw [dataWrite_packet _ hstate (by omega), packetWordStored, setWord_eq_set (by omega), dataWord_low, dataWord_high]
  case mode =>
    intro hstate
    refine ⟨setWord s.drive.pio.data s.drive.pio.index (v.setWidth 16), ?bytes, ?before, ?last⟩
    case bytes =>
      intro j
      rw [setWord_getD, dataWord_low, dataWord_high]
    case before => exact fun hindex => dataWrite_mode _ hstate (by omega)
    case last =>
      intro hindex hnext hfits
      refine ⟨_, blockReplace_length (bufSlice_length _ _ _) hfits, ?block, dataWrite_mode_last _ hstate hindex hnext⟩
      intro j
      rw [blockReplace_getD (bufSlice_length _ _ _) hfits]
      split
      case isTrue hinside => rw [bufSlice_getD (by omega), Nat.zero_add]
      case isFalse => rfl
  case ignored => exact fun hpacket hmode => dataWrite_ignored _ hpacket hmode

/-! ### Command writes (R162, R122, R180) -/

/-- The state in which a Command write of `b` runs its command (R162, R122). -/
def commandLatched (b : Byte) (s : State) : State := inProcessAta { s with drive.ataCommand := b }

/-- A Command write in `WaitCommand` runs the command its byte decodes to, or the rejection (R162, R180). -/
theorem exec_w8Command_open {s : State} {w : Width} (v : BitVec 32) (hwidth : w ≠ .w32)
    (hgate : slaveSelected s.drive.driveSelect = false) (hstate : s.drive.state = .waitCommand) :
    exec (.w8Command w v) s =
      exec (if s.drive.discSwapPending then .ataSwapReject else decodeAta s.cfg (v.setWidth 8))
        (commandLatched (v.setWidth 8) s) := by
  rw [exec_w8Command, portWrite_next hwidth hgate, if_pos hstate, enterProcessAtaCommand,
    moveTo_next (mapped_of_state (by exact hstate) rfl), andThen_next]
  exact runAta_selected _ _ _ _

/-- A Command write in any other state is the fault of R133. -/
theorem exec_w8Command_fault {s : State} {w : Width} (v : BitVec 32) (hwidth : w ≠ .w32)
    (hgate : slaveSelected s.drive.driveSelect = false) (hstate : s.drive.state ≠ .waitCommand) :
    exec (.w8Command w v) s = .fault .unmappedTransition := by
  rw [exec_w8Command, portWrite_next hwidth hgate, if_neg hstate]

/-- Settles O34: the dispatch runs what `exec` runs. -/
theorem commandWriteRuns : Obligations.CommandWriteRuns := by
  intro s w v hwidth hgate
  exact ⟨fun hstate => ⟨_, rfl, exec_w8Command_open v hwidth hgate hstate⟩,
    fun hstate => exec_w8Command_fault v hwidth hgate hstate⟩

end Sys2Proof.Machine
end

section
/-! PROOFS. The last packet word runs the packet's command (R124, R152, R200), and where a Command write leaves the device
(R190). -/

namespace Sys2Proof.Machine

/-! ### The last packet word -/

/-- The opcodes of the commands that need a disc (R200). -/
def mediaOpcodes (c : Cfg) : List Byte :=
  [c.opPktGetToc, c.opPktReqSes, c.opPktGetScd, c.opPktCdPlay, c.opPktCdSeek, c.opPktCdRead, c.opPktCdRead2]

/-- In the table of R84 the commands that need a disc are those of their opcodes: no other entry shares one. -/
theorem needsMedia_of_mem_packetTable {c : Cfg} (hnodup : c.packetOpcodes.Nodup) (p : List Byte) :
    ∀ entry ∈ packetTable c p, needsMedia entry.2 = decide (entry.1 ∈ mediaOpcodes c) := by
  simp only [Cfg.packetOpcodes, List.nodup_cons, List.mem_cons, List.not_mem_nil, or_false, not_or] at hnodup
  simp only [packetTable, mediaOpcodes, List.forall_mem_cons, needsMedia_testUnit, needsMedia_reqStat,
    needsMedia_reqMode, needsMedia_setMode, needsMedia_reqError, needsMedia_getToc, needsMedia_reqSes,
    needsMedia_cdOpen, needsMedia_decodePlay, needsMedia_cdSeek, needsMedia_cdScan, needsMedia_cdRead,
    needsMedia_cdRead2, needsMedia_decodeSubcode]
  simp [hnodup, eq_comm (a := c.opPktCdOpen), eq_comm (a := c.opPktCdScan)]

/-- A packet's command needs a disc exactly if its opcode is one of those of R200. -/
theorem needsMedia_decodePacket {c : Cfg} (hc : c.Wf) (p : List Byte) :
    needsMedia (decodePacket c p) = true ↔ packetByte p 0 ∈ mediaOpcodes c := by
  obtain ⟨⟨-, hnodup, -⟩, -⟩ := hc
  rw [decodePacket_eq_selectOp]
  refine selectOp_induction (motive := fun i => needsMedia i = true ↔ packetByte p 0 ∈ mediaOpcodes c) ?entry ?unknown
  case entry =>
    intro i hi
    rw [needsMedia_of_mem_packetTable hnodup p _ hi, decide_eq_true_iff]
  case unknown =>
    intro hnot
    rw [needsMedia_pktUnknown]
    refine iff_of_false Bool.false_ne_true fun hmem => hnot (packetTable_opcodes c p ▸ ?_)
    simp only [mediaOpcodes, Cfg.packetOpcodes, List.mem_cons] at hmem ⊢
    tauto

/-- No disc is in the drive (R29). -/
theorem discPresent_eq_false_iff (t : DiscType) : discPresent t = false ↔ t = .noDisc ∨ t = .trayOpen := by
  cases t <;> decide

/-- The check bit of R200 is set exactly by the sense keys that are not harmless. -/
theorem not_packetHarmless (c : Cfg) (key : BitVec 4) :
    (!packetHarmless c key) = decide (key ∉ [c.skNoSense, c.skAborted]) := by
  simp [packetHarmless, Bool.beq_eq_decide_eq]

/-- The last word of a buffer of whole words. -/
theorem setWord_last {b : List Byte} {k : Nat} (hlength : b.length = 2 * k + 2) (v : Half) :
    setWord b k v = b.take (2 * k) ++ [v.extractLsb' 0 8, v.extractLsb' 8 8] := by
  rw [setWord_eq_set (by omega)]
  apply List.ext_getElem?
  intro i
  grind

/-- The state in which the command of a whole packet runs: in `ProcessPacketCommand`, after the prologue (R124, R200). -/
def packetStarted (s : State) : State := packetPrologue (inProcessPacket s)

/-- `enter(ProcessPacketCommand)` runs the command the packet decodes to, or the media-absent error (R124, R200). -/
theorem enterProcessPacketCommand_next {s : State} (hstate : s.drive.state = .waitPacket) :
    enterProcessPacketCommand s =
      exec (selectPacket (packetStarted s) (decodePacket s.cfg s.drive.packet.bytes)) (packetStarted s) := by
  rw [enterProcessPacketCommand, moveTo_next (mapped_of_state hstate rfl), andThen_next]
  exact runPacket_selected _ _ _ _

/-- Settles O35: the last word makes the packet whole; its command needs a disc exactly if its opcode is one of R200's. -/
theorem sixthWordRuns : Obligations.SixthWordRuns := by
  intro s v hc hgate hstate hindex hlength
  dsimp only
  have ⟨_, hpacket, heven, _⟩ := hc
  have hwords : s.drive.packet.bytes.length = 2 * s.drive.packet.index + 2 := by omega
  have hbefore : 2 * s.drive.packet.index = s.cfg.packetBytes - 2 := by omega
  have hpacketBytes : setWord s.drive.packet.bytes s.drive.packet.index (v.setWidth 16) =
      s.drive.packet.bytes.take (s.cfg.packetBytes - 2) ++ [v.setWidth 8, (v >>> 8).setWidth 8] := by
    rw [setWord_last hwords, dataWord_low, dataWord_high, hbefore]
  have hsize : (s.drive.packet.bytes.take (s.cfg.packetBytes - 2) ++
      [v.setWidth 8, ((v >>> 8).setWidth 8 : Byte)]).length = s.cfg.packetBytes := by
    simp [hlength]
    omega
  refine ⟨_, if_pos hsize, ?_⟩
  rw [exec_w16Data_open v hgate, dataWrite_packet_last _ hstate hindex,
    enterProcessPacketCommand_next (s := packetWordStored (v.setWidth 16) s) hstate]
  simp only [packetStarted, packetPrologue, inProcessPacket, packetWordStored, hpacketBytes, hindex, selectPacket,
    needsMedia_decodePacket hc, discPresent_eq_false_iff, not_packetHarmless]
  rfl

/-! ### Where a Command write leaves the device -/

/-- What the configuration, host memory and the buffers of the device are: an ATA command that completes at once writes
none of it. -/
def buffersOf (s : State) :=
  (s.cfg, s.hostMem, s.drive.packet, s.drive.pio, s.drive.modeBlock, s.drive.setModeOffset, s.drive.cache)

/-- What only a few steps change: host memory, the configuration, the backend, the disc type, the Error flags but abort,
and the mode block. -/
def keptOf (s : State) :=
  (s.hostMem, s.cfg, s.media, s.drive.discType, s.drive.error.ili, s.drive.error.eom, s.drive.error.mcr,
    s.drive.modeBlock)

/-- What an ATA command but PACKET and IDENTIFY_DEVICE does: it completes at once, from a state `u` in which it has
written registers alone (R180 to R184, R187 to R189); SOFT_RESET alone writes the Error flags but abort. -/
theorem ataCommand_done {i : Instr} {s : State} (hformat : i.format = .ata) (hpacket : i ≠ .packet)
    (hidentify : i ≠ .identifyDevice) (hstate : s.drive.state = .processAtaCommand) :
    ∃ abort check u, exec i s = .next (ataDone abort check u) ∧ u.events = s.events ∧ buffersOf u = buffersOf s ∧
      (s.drive.status.drq = false → u.drive.status.drq = false) ∧ (i ≠ .softReset → keptOf u = keptOf s) := by
  cases i with
  | packet => exact absurd rfl hpacket
  | identifyDevice => exact absurd rfl hidentify
  | nop => exact ⟨_, _, s, ataComplete_true_next hstate, rfl, rfl, id, fun _ => rfl⟩
  | softReset =>
    exact ⟨_, _, setDiscRegister .paused (softResetBank s), execSoftReset_next hstate, rfl, rfl, fun _ => rfl,
      fun h => absurd rfl h⟩
  | executeDiagnostic => exact ⟨_, _, s, execExecuteDiagnostic_next hstate, rfl, rfl, id, fun _ => rfl⟩
  | setFeatures => exact ⟨_, _, s, ataComplete_false_next hstate, rfl, rfl, id, fun _ => rfl⟩
  | identify => exact ⟨_, _, _, ataComplete_true_next hstate, rfl, rfl, id, fun _ => rfl⟩
  | ataUnknown b => exact ⟨_, _, _, ataComplete_true_next hstate, rfl, rfl, id, fun _ => rfl⟩
  | ataSwapReject => exact ⟨_, _, _, ataComplete_true_next hstate, rfl, rfl, id, fun _ => rfl⟩
  | _ => cases hformat

/-- What R190 says of an ATA command that completes at once. -/
theorem ataCommand_completes {i : Instr} {s : State} (hformat : i.format = .ata) (hpacket : i ≠ .packet)
    (hidentify : i ≠ .identifyDevice) (hstate : s.drive.state = .processAtaCommand) :
    ∃ t, exec i s = .next t ∧ t.events = s.events ++ [.raise .commandComplete] ∧
      (t.drive.status.busy && t.drive.status.ready) = false ∧ t.drive.state = .waitCommand := by
  obtain ⟨abort, check, u, hexec, hevents, -⟩ := ataCommand_done hformat hpacket hidentify hstate
  exact ⟨ataDone abort check u, hexec, congrArg (· ++ _) hevents, rfl, rfl⟩

/-- IDENTIFY_DEVICE opens a window of the identification block (R186). -/
theorem exec_identifyDevice_window {s : State} (hstate : s.drive.state = .processAtaCommand)
    (hblock : s.cfg.identifyBlock.length = s.cfg.identifyBytes) (hwords : 2 ≤ s.cfg.identifyBytes) :
    exec .identifyDevice s = .next (windowOpen s.cfg.identifyBlock .pioEnd { s with
      drive.error.abort := false
      drive.status.check :=
        decide (s.drive.sense.key ∉ [s.cfg.skNoSense, s.cfg.skAborted, s.cfg.skUnitAttention]) }) := by
  rw [identifyDeviceResult s hstate hblock, replied, if_pos (hblock ▸ hwords)]

/-- Settles O36: PACKET enters `WaitPacket`, IDENTIFY_DEVICE opens a window of the identification block, any other
command, and the rejection of a pending swap, completes at once. -/
theorem commandWriteCompletes : Obligations.CommandWriteCompletes := by
  intro s w v hwidth hgate hstate hblock hwords
  rw [exec_w8Command_open v hwidth hgate hstate]
  obtain ⟨hformat, -, -⟩ := wellFormed_decodeAta s.cfg (v.setWidth 8)
  generalize decodeAta s.cfg (v.setWidth 8) = i at hformat ⊢
  cases s.drive.discSwapPending with
  | true =>
    obtain ⟨t, hexec, hevents, hbusy, hwait⟩ :=
      ataCommand_completes (i := .ataSwapReject) (s := commandLatched (v.setWidth 8) s) rfl nofun nofun rfl
    exact ⟨t, _, hexec, hevents, hbusy, by simp [hwait]⟩
  | false =>
    by_cases hpacket : i = .packet
    · subst hpacket
      exact ⟨_, [], packetResult (commandLatched (v.setWidth 8) s) rfl, (List.append_nil _).symm, rfl, by simp⟩
    by_cases hidentify : i = .identifyDevice
    · subst hidentify
      refine ⟨_, _, exec_identifyDevice_window (s := commandLatched (v.setWidth 8) s) rfl hblock hwords, rfl, rfl,
        ?_⟩
      rw [if_neg (by simp), if_pos ⟨rfl, rfl⟩]
      exact ⟨rfl, rfl⟩
    · obtain ⟨t, hexec, hevents, hbusy, hwait⟩ :=
        ataCommand_completes (s := commandLatched (v.setWidth 8) s) hformat hpacket hidentify rfl
      exact ⟨t, _, hexec, hevents, hbusy, by simp [hpacket, hidentify, hwait]⟩

end Sys2Proof.Machine
end

section
/-! PROOFS. A DMA tick that runs (R254, R251, R60), step by step. -/

namespace Sys2Proof.Machine

/-- Past its guards the tick runs steps 1 to 5 (R254). -/
theorem execTickDma_running {s : State} (hscheduled : s.drive.dmaScheduled = true) (hstart : s.dma.start = true)
    (henable : s.dma.enable = true) (hstate : s.drive.state = .readSectorDma)
    (hdirection : s.dma.direction = s.cfg.dmaToHost) : execTickDma s = dmaChunk s := by
  rw [execTickDma, if_neg (by simp [hscheduled]), if_neg (by simp [hstart, henable]), if_neg (not_not_intro hstate),
    if_neg (not_not_intro hdirection)]

/-- Step 1 of the tick as a change of three fields. -/
theorem dmaRefill_fields (s : State) : dmaRefill s =
    (let refill := s.drive.cache.avail = 0 ∧ s.drive.rr.remaining ≠ 0
     let k := min s.drive.rr.remaining.toNat s.cfg.cacheSectors
     let size := sectorBytes s.cfg s.drive.rr.sectorSize
     { s with
      draws := if refill then s.draws + 1 else s.draws
      drive.cache := if refill then {
          bytes := mediaSectors s s.drive.rr.startSector k size ++ s.drive.cache.bytes.drop (k * size)
          rd := 0
          avail := k * size } else s.drive.cache
      drive.rr := if refill then { s.drive.rr with
          startSector := s.drive.rr.startSector + BitVec.ofNat 32 k
          remaining := s.drive.rr.remaining - BitVec.ofNat 32 k } else s.drive.rr }) := by
  rw [dmaRefill_eq]
  dsimp only
  split
  · rfl
  · rfl

/-- Steps 2 and 3 of the tick, from the state after the refill. -/
theorem dmaMoved_eq (s : State) : dmaMoved s =
    (let r := dmaRefill s
     let n := dmaCount r
     let bytes := bufSlice r.drive.cache.bytes r.drive.cache.rd n
     let moved := r.dma.transferred + BitVec.ofNat 32 n
     { r with
      hostMem := memWriteBytes r.hostMem r.dma.cursor bytes
      events := r.events ++ (if n = 0 then [] else [.hostMemWrite r.dma.cursor bytes]) ++
        (if moved = r.dma.length then [.raise .dmaComplete] else [])
      drive.cache.rd := r.drive.cache.rd + n
      drive.cache.avail := r.drive.cache.avail - n
      dma.cursor := r.dma.cursor + BitVec.ofNat 32 n
      dma.transferred := moved
      dma.start := r.dma.start && decide (moved ≠ r.dma.length)
      irq.dmaComplete := r.irq.dmaComplete || decide (moved = r.dma.length) }) := by
  rw [dmaMoved, dmaCountUp_eq, dmaMove_eq]

/-- The command is over: no sector is left to read and no byte to drain (R254 step 4). -/
abbrev dmaFinished (s : State) : Prop := s.drive.rr.remaining = 0 ∧ s.drive.cache.avail = 0

/-- The state after steps 4 and 5 of the tick (R254): the command ended if it is over, and the rescheduling. -/
def dmaFinish (s : State) : State := { s with
  irq.commandComplete := s.irq.commandComplete || decide (dmaFinished s)
  drive.state := if dmaFinished s then .waitCommand else .readSectorDma
  drive.status.busy := if dmaFinished s then false else s.drive.status.busy
  drive.status.ready := if dmaFinished s then true else s.drive.status.ready
  drive.ireasonCod := if dmaFinished s then true else s.drive.ireasonCod
  drive.dmaScheduled := s.drive.dmaScheduled && (s.dma.start && !decide (dmaFinished s))
  events := s.events ++ (if dmaFinished s then [.raise .commandComplete] else []) }

/-- Steps 4 and 5 of the tick. -/
theorem dmaFinish_eq {s : State} (hstate : s.drive.state = .readSectorDma) :
    andThen (if dmaFinished s then enterProcessPacketDone s else .next s) (fun u => .next (dmaReschedule u)) =
      .next (dmaFinish s) := by
  unfold dmaFinish
  by_cases hfinished : dmaFinished s
  case pos =>
    rw [if_pos hfinished, enterProcessPacketDone_next (mapped_of_state hstate rfl), andThen_next]
    simp [dmaReschedule, dmaUnschedule, packetDone, hfinished]
  case neg =>
    rw [if_neg hfinished, andThen_next]
    cases hstart : s.dma.start with
    | false => simp [dmaReschedule, dmaUnschedule, hstate, hstart, hfinished]
    | true =>
      simp only [dmaReschedule, hstate, hstart, hfinished]
      simp [← hstate]

/-- A tick that runs answers the state after its five steps. -/
theorem dmaChunk_next_dmaFinish {s : State} (hstate : s.drive.state = .readSectorDma) :
    dmaChunk s = .next (dmaFinish (dmaMoved s)) := by
  have hmoved : (dmaMoved s).drive.state = .readSectorDma := by
    rw [dmaMoved_eq, dmaRefill_fields]
    exact hstate
  rw [dmaChunk_eq]
  exact dmaFinish_eq hmoved

/-- Settles O42: the refill, the move and the count, and the end of the command, one after the other. -/
theorem dmaTickMoves : Obligations.DmaTickMoves := by
  intro s hscheduled hstart henable hstate hdirection
  dsimp only
  refine (execTickDma_running hscheduled hstart henable hstate hdirection).trans ?_
  rw [dmaChunk_next_dmaFinish hstate]
  simp only [dmaFinish, dmaMoved_eq, dmaFinished, dmaRefill_fields, dmaCount, hscheduled, hstart, Bool.true_and,
    Bool.decide_and, decide_not]

end Sys2Proof.Machine
end

section
/-! PROOFS. The invariant of stable states (R136, R137) in two parts: what holds of the buffers in every state, and what a
stable state asks for beside it. The ends of a command, written out, meet it. -/

namespace Sys2Proof.Machine

/-! ### The two parts of the invariant -/

/-- What the invariant says of the configuration, of host memory and of the buffers, whatever state the device is in. -/
structure Sound (s : State) : Prop where
  cfg : s.cfg.Wf
  mem : Memory.wf s.hostMem
  packetLength : s.drive.packet.bytes.length = s.cfg.packetBytes
  packetIndex : s.drive.packet.index ≤ s.cfg.packetBytes / 2
  pioIndex : s.drive.pio.index ≤ s.drive.pio.size
  pioSize : 2 * s.drive.pio.size ≤ s.cfg.pioBufBytes
  pioNext : s.drive.pio.nextState = .pioEnd ∨ s.drive.pio.nextState = .readSectorPio ∨
    s.drive.pio.nextState = .processSetMode
  modeLength : s.drive.modeBlock.length = s.cfg.modeBlockBytes
  modeOffset : s.drive.setModeOffset ≤ s.cfg.modeWritableBytes
  cache : CacheSound s.cfg s.drive

/-- Soundness depends on `buffersOf` alone. -/
theorem Sound.congr {s t : State} (hs : Sound s) (h : buffersOf t = buffersOf s) : Sound t := by
  simp only [buffersOf, Prod.mk.injEq] at h
  obtain ⟨hcfg, hmem, hpacket, hpio, hblock, hoffset, hcache⟩ := h
  constructor
  all_goals simp only [hcfg, hmem, hpacket, hpio, hblock, hoffset, CacheSound, hcache]
  · exact hs.cfg
  · exact hs.mem
  · exact hs.packetLength
  · exact hs.packetIndex
  · exact hs.pioIndex
  · exact hs.pioSize
  · exact hs.pioNext
  · exact hs.modeLength
  · exact hs.modeOffset
  · exact hs.cache

theorem State.Inv.sound {s : State} (h : s.Inv) : Sound s := by
  obtain ⟨hcfg, hmem, -, -, ⟨hlength, hindex, -⟩, ⟨hpioIndex, hpioSize, hpioNext, -⟩, ⟨hblock, hoffset, -⟩, hcache,
    -⟩ := h
  exact ⟨hcfg, hmem, hlength, hindex, hpioIndex, hpioSize, hpioNext, hblock, hoffset, hcache⟩

/-- What a stable state asks for beside sound buffers: the row of R137, words that are still awaited or left, the
continuation of a window, and no pending swap outside `WaitCommand` (R344). -/
def Resting (s : State) : Prop :=
  match s.drive.state with
  | .waitCommand => s.drive.status.busy = false ∧ s.drive.status.ready = true ∧ s.drive.status.drq = false
  | .waitPacket => StatusRow s.drive ∧ s.drive.packet.index < s.cfg.packetBytes / 2 ∧ s.drive.discSwapPending = false
  | .pioSendData => StatusRow s.drive ∧ s.drive.pio.index < s.drive.pio.size ∧
      (s.drive.pio.nextState = .pioEnd ∨ s.drive.pio.nextState = .readSectorPio) ∧ s.drive.discSwapPending = false
  | .pioGetData => StatusRow s.drive ∧ s.drive.pio.index < s.drive.pio.size ∧
      s.drive.pio.nextState = .processSetMode ∧
      s.drive.setModeOffset + 2 * s.drive.pio.size ≤ s.cfg.modeWritableBytes ∧ s.drive.discSwapPending = false
  | .readSectorDma => StatusRow s.drive ∧ s.drive.discSwapPending = false
  | _ => False

theorem resting_waitCommand {s : State} (hstate : s.drive.state = .waitCommand) : Resting s ↔
    s.drive.status.busy = false ∧ s.drive.status.ready = true ∧ s.drive.status.drq = false := by
  simp only [Resting, hstate]

theorem resting_waitPacket {s : State} (hstate : s.drive.state = .waitPacket) : Resting s ↔
    StatusRow s.drive ∧ s.drive.packet.index < s.cfg.packetBytes / 2 ∧ s.drive.discSwapPending = false := by
  simp only [Resting, hstate]

theorem resting_pioSendData {s : State} (hstate : s.drive.state = .pioSendData) : Resting s ↔
    StatusRow s.drive ∧ s.drive.pio.index < s.drive.pio.size ∧
      (s.drive.pio.nextState = .pioEnd ∨ s.drive.pio.nextState = .readSectorPio) ∧
      s.drive.discSwapPending = false := by
  simp only [Resting, hstate]

theorem resting_pioGetData {s : State} (hstate : s.drive.state = .pioGetData) : Resting s ↔
    StatusRow s.drive ∧ s.drive.pio.index < s.drive.pio.size ∧ s.drive.pio.nextState = .processSetMode ∧
      s.drive.setModeOffset + 2 * s.drive.pio.size ≤ s.cfg.modeWritableBytes ∧
      s.drive.discSwapPending = false := by
  simp only [Resting, hstate]

theorem resting_readSectorDma {s : State} (hstate : s.drive.state = .readSectorDma) : Resting s ↔
    StatusRow s.drive ∧ s.drive.discSwapPending = false := by
  simp only [Resting, hstate]

/-- A swap that is pending only in `WaitCommand` is not pending elsewhere. -/
theorem not_swapPending {s : State} (h : s.Inv) (hstate : s.drive.state ≠ .waitCommand) :
    s.drive.discSwapPending = false := by
  obtain ⟨-, -, -, -, -, -, -, -, hswap⟩ := h
  exact Bool.eq_false_of_not_eq_true fun hpending => hstate (hswap hpending)

theorem State.Inv.resting {s : State} (h : s.Inv) : Resting s := by
  have hnotPending := not_swapPending h
  obtain ⟨-, -, hstable, hrow, ⟨-, -, hpacket⟩, ⟨-, -, -, hsend, hget⟩, ⟨-, -, hmode⟩, -, -⟩ := h
  unfold Resting
  split
  next hstate => simpa only [StatusRow, hstate] using hrow
  next hstate => exact ⟨hrow, hpacket hstate, hnotPending (by rw [hstate]; decide)⟩
  next hstate =>
    obtain ⟨hindex, hnext⟩ := hsend hstate
    exact ⟨hrow, hindex, hnext, hnotPending (by rw [hstate]; decide)⟩
  next hstate =>
    obtain ⟨hindex, hnext⟩ := hget hstate
    exact ⟨hrow, hindex, hnext, hmode hstate, hnotPending (by rw [hstate]; decide)⟩
  next hstate => exact ⟨hrow, hnotPending (by rw [hstate]; decide)⟩
  next hcommand hpacketState hsendState hgetState hdma =>
    revert hstable
    cases hstate : s.drive.state <;> simp_all [stable]

/-- A state with sound buffers that rests in a stable state meets the invariant. -/
theorem Sound.inv {s : State} (hs : Sound s) (hresting : Resting s) : s.Inv := by
  unfold Resting at hresting
  refine ⟨hs.cfg, hs.mem, ?_, ?_, ⟨hs.packetLength, hs.packetIndex, ?_⟩,
    ⟨hs.pioIndex, hs.pioSize, hs.pioNext, ?_, ?_⟩, ⟨hs.modeLength, hs.modeOffset, ?_⟩, hs.cache, ?_⟩
  all_goals split at hresting
  all_goals simp_all [stable, StatusRow]

/-! ### The ends of a command -/

/-- A command that is over leaves a state of the invariant (R130, R121), if no data is asked for any more. -/
theorem Sound.packetDone_inv {s : State} (hs : Sound s) (hdrq : s.drive.status.drq = false) : (packetDone s).Inv :=
  Sound.inv (s := packetDone s) (hs.congr rfl) ⟨rfl, rfl, hdrq⟩

/-- An ATA command that completes at once leaves a state of the invariant (R181, R121). -/
theorem Sound.ataDone_inv {s : State} (hs : Sound s) (hdrq : s.drive.status.drq = false) (abort check : Bool) :
    (ataDone abort check s).Inv :=
  Sound.inv (s := ataDone abort check s) (hs.congr rfl) ⟨rfl, rfl, hdrq⟩

/-- A window for the host to read that fits the buffer is a state of the invariant (R134, R125). -/
theorem Sound.windowOpen_inv {s : State} (hs : Sound s) {b : List Byte} {next : Proto}
    (hfits : b.length ≤ s.cfg.pioBufBytes) (hwords : 2 ≤ b.length) (hnext : next = .pioEnd ∨ next = .readSectorPio)
    (hready : s.drive.status.ready = false) (hswap : s.drive.discSwapPending = false) :
    (windowOpen b next s).Inv := by
  have hsize : 0 < b.length / 2 ∧ 2 * (b.length / 2) ≤ s.cfg.pioBufBytes := by omega
  obtain ⟨hpos, hcapacity⟩ := hsize
  refine Sound.inv ?sound ⟨⟨rfl, hready, rfl, rfl⟩, hpos, hnext, hswap⟩
  case sound =>
    exact { hs with pioIndex := Nat.zero_le _, pioSize := hcapacity, pioNext := hnext.imp_right .inl }

/-- A staged reply that fits the buffer is a state of the invariant, with a window or at the end of the command (R134). -/
theorem Sound.replied_inv {s : State} (hs : Sound s) {b : List Byte} (hfits : b.length ≤ s.cfg.pioBufBytes)
    (hready : s.drive.status.ready = false) (hswap : s.drive.discSwapPending = false) : (replied b s).Inv := by
  unfold replied
  split
  case isTrue hwords => exact hs.windowOpen_inv hfits hwords (.inl rfl) hready hswap
  case isFalse =>
    refine Sound.packetDone_inv ?_ rfl
    exact { hs with pioIndex := Nat.le_refl _, pioSize := Nat.zero_le _, pioNext := .inl rfl }

theorem keptOf_replied (b : List Byte) (s : State) : keptOf (replied b s) = keptOf s := by
  unfold replied
  split
  · rfl
  · rfl

end Sys2Proof.Machine
end

section
/-! PROOFS. Outcomes that are no fault and whose next state has a property; those that keep the invariant and what
`keptOf` names. -/

namespace Sys2Proof.Machine

/-- An outcome that is no fault, and whose next state, if it is one, has a property. -/
structure Sure (P : State → Prop) (r : Res) : Prop where
  next : ∀ t, r = .next t → P t
  no_fault : ∀ f, r ≠ .fault f

theorem sure_next {P : State → Prop} {t : State} (h : P t) : Sure P (.next t) :=
  ⟨by rintro _ ⟨⟩; exact h, fun _ => nofun⟩

theorem sure_of_eq {P : State → Prop} {r : Res} {t : State} (hr : r = .next t) (h : P t) : Sure P r := hr ▸ sure_next h

theorem sure_refused {P : State → Prop} {q : Refusal} : Sure P (.refused q) := ⟨fun _ => nofun, fun _ => nofun⟩

theorem Sure.mono {P Q : State → Prop} {r : Res} (h : Sure P r) (hPQ : ∀ t, P t → Q t) : Sure Q r :=
  ⟨fun t ht => hPQ t (h.next t ht), h.no_fault⟩

theorem Sure.ite {P : State → Prop} {c : Prop} [Decidable c] {a b : Res} (ha : c → Sure P a) (hb : ¬ c → Sure P b) :
    Sure P (if c then a else b) := by
  split
  case isTrue hc => exact ha hc
  case isFalse hc => exact hb hc

/-- The state `t` meets the invariant and has what only a few steps change as `s` has it. -/
def Steady (s t : State) : Prop := t.Inv ∧ keptOf t = keptOf s

/-- Putting out an event changes nothing of the invariant. -/
theorem Steady.emit {s t : State} (h : Steady s t) (e : Event) : Steady s (t.emit e) := h

theorem sure_ignoredStep {s : State} (h : s.Inv) : Sure (Steady s) (ignoredStep s) :=
  sure_next (Steady.emit ⟨h, rfl⟩ _)

theorem sure_ignoredRead {s : State} (h : s.Inv) (w : Width) : Sure (Steady s) (ignoredRead w s) :=
  sure_next ((Steady.emit ⟨h, rfl⟩ _).emit _)

/-- A read of an 8-bit port is steady if its port rule is. -/
theorem sure_portRead {s : State} (h : s.Inv) (w : Width) {k : State → Byte × State} (hk : Steady s (k s).2) :
    Sure (Steady s) (portRead w s k) :=
  .ite (fun _ => sure_refused) fun _ => .ite (fun _ => sure_ignoredRead h w) fun _ => sure_next (hk.emit _)

/-- A write of an 8-bit port is what its port rule is once past the width check and the gate. -/
theorem sure_portWrite {s : State} (h : s.Inv) {w : Width} {v : BitVec 32} {k : Byte → State → Res}
    (hk : w ≠ .w32 → slaveSelected s.drive.driveSelect = false → Sure (Steady s) (k (v.setWidth 8) s)) :
    Sure (Steady s) (portWrite w v s k) :=
  .ite (fun _ => sure_refused) fun hwidth => .ite (fun _ => sure_ignoredStep h) fun hgate =>
    hk hwidth (Bool.eq_false_of_not_eq_true hgate)

end Sys2Proof.Machine
end

section
/-! PROOFS. The packet commands keep the invariant and what `keptOf` names (R201 to R236). -/

namespace Sys2Proof.Machine

/-- The state in which a packet command runs (R124): sound buffers, busy, no data asked for, no swap pending. -/
structure PacketRunning (s : State) : Prop where
  sound : Sound s
  state : s.drive.state = .processPacketCommand
  busy : s.drive.status.busy = true
  ready : s.drive.status.ready = false
  drq : s.drive.status.drq = false
  cod : s.drive.ireasonCod = true
  swap : s.drive.discSwapPending = false

/-- A packet command that ends, from a state in which it has written neither a buffer nor what `keptOf` names. -/
theorem PacketRunning.sure_done {s u : State} {r : Res} (h : PacketRunning s) (hr : r = .next (packetDone u))
    (hbuffers : buffersOf u = buffersOf s) (hdrq : u.drive.status.drq = s.drive.status.drq)
    (hkept : keptOf u = keptOf s) : Sure (Steady s) r :=
  sure_of_eq hr ⟨(h.sound.congr hbuffers).packetDone_inv (hdrq.trans h.drq), hkept⟩

/-- A packet command that stages a reply, from a state in which it has written neither a buffer nor what `keptOf` names. -/
theorem PacketRunning.sure_reply {s u : State} {b : List Byte} {r : Res} (h : PacketRunning s)
    (hr : r = .next (replied b u)) (hfits : b.length ≤ u.cfg.pioBufBytes) (hbuffers : buffersOf u = buffersOf s)
    (hready : u.drive.status.ready = s.drive.status.ready)
    (hswap : u.drive.discSwapPending = s.drive.discSwapPending) (hkept : keptOf u = keptOf s) : Sure (Steady s) r :=
  sure_of_eq hr ⟨(h.sound.congr hbuffers).replied_inv hfits (hready.trans h.ready) (hswap.trans h.swap),
    (keptOf_replied b u).trans hkept⟩

/-- A reply no longer than a length byte says fits the buffer (log entry 21). -/
theorem take_byte_fits {c : Cfg} (hc : c.Wf) (b : List Byte) (n : Byte) : (b.take n.toNat).length ≤ c.pioBufBytes := by
  obtain ⟨-, -, -, -, -, -, -, hbuffer, -⟩ := hc
  have hn := n.isLt
  rw [List.length_take]
  omega

/-- A record of no more bytes than a length byte can say fits the buffer, cut or not. -/
theorem take_fits {c : Cfg} (hc : c.Wf) {b : List Byte} (hb : b.length ≤ 255) (n : Nat) :
    (b.take n).length ≤ c.pioBufBytes := by
  obtain ⟨-, -, -, -, -, -, -, hbuffer, -⟩ := hc
  rw [List.length_take]
  omega

/-- The sectors of one window fit the buffer (R5). -/
theorem window_fits {c : Cfg} (hc : c.Wf) (n : Nat) (z : SectorSize) :
    min n c.pioBurstSectors * sectorBytes c z ≤ c.pioBufBytes := by
  obtain ⟨⟨-, -, -, hburst, -⟩, hfits⟩ := hc
  calc min n c.pioBurstSectors * sectorBytes c z
      ≤ c.pioBurstSectors * c.sectorRaw := Nat.mul_le_mul (Nat.min_le_right _ _) (sectorBytes_le hfits z)
    _ ≤ c.pioBufBytes := hburst

/-- One window has a word at least, unless no sector is left. -/
theorem window_words {c : Cfg} (hc : c.Wf) {n : Nat} (hn : n ≠ 0) (z : SectorSize) :
    2 ≤ min n c.pioBurstSectors * sectorBytes c z := by
  have ⟨_, _, _, _, hburst, _⟩ := hc
  have hsector := two_le_sectorBytes hc.2 z
  calc 2 ≤ 1 * sectorBytes c z := by omega
    _ ≤ min n c.pioBurstSectors * sectorBytes c z := Nat.mul_le_mul_right _ (by omega)

/-- The continuation of a window of sectors is one that R132 lists. -/
theorem window_next (c : Prop) [Decidable c] :
    (if c then Proto.readSectorPio else .pioEnd) = .pioEnd ∨
      (if c then Proto.readSectorPio else .pioEnd) = .readSectorPio := by
  split
  · exact .inr rfl
  · exact .inl rfl

/-- A read of sectors opens a window, ends at once, or fills the cache (R127, R128, R232). -/
theorem PacketRunning.sure_beginRead {s : State} (h : PacketRunning s) (flags : ReadFlags) (start : Addr3) {n : Nat}
    (hn : n < 4294967296) : Sure (Steady s) (beginRead flags start (BitVec.ofNat 32 n) s) := by
  have hc := h.sound.cfg
  cases hfeatures : s.drive.features.getLsbD 0 with
  | false =>
    rw [beginRead_pio flags start hn hc h.state hfeatures]
    refine .ite (fun _ => ?empty) fun hpos => sure_next ⟨?window, rfl⟩
    case empty => exact h.sure_reply rfl (Nat.zero_le _) rfl rfl rfl rfl
    case window =>
      refine Sound.windowOpen_inv (h.sound.congr rfl) ?_ ?_ (window_next _) h.ready h.swap
      · rw [mediaSectors_length]
        exact window_fits hc _ _
      · rw [mediaSectors_length]
        exact window_words hc hpos _
  | true =>
    rw [beginRead_dma flags start hn h.state hfeatures]
    refine sure_next ⟨Sound.inv ?sound ⟨⟨h.busy, h.ready, h.drq, h.cod⟩, h.swap⟩, rfl⟩
    case sound =>
      refine { h.sound with cache := ?_ }
      show 0 + min n s.cfg.cacheSectors * sectorBytes s.cfg (sectorSizeOf s.cfg flags) ≤ _
      rw [Nat.zero_add]
      exact Nat.mul_le_mul (Nat.min_le_right _ _) (sectorBytes_le hc.2 _)

end Sys2Proof.Machine
end

section
/-! PROOFS. Every command keeps the invariant, and, SOFT_RESET apart, what `keptOf` names (R180 to R189, R200 to R236). -/

namespace Sys2Proof.Machine

/-! ### Packet commands -/

/-- The parameter error ends the command (R215). -/
theorem PacketRunning.sure_paramError {s : State} (h : PacketRunning s) : Sure (Steady s) (exec .pktParamError s) :=
  have ⟨_, hparam, _⟩ := packetErrorResult s 0 h.state
  h.sure_done hparam rfl rfl rfl

/-- GET_SCD of every format stages its record or is the parameter error (R210 to R213). -/
theorem PacketRunning.sure_subcode {s : State} (h : PacketRunning s) (alloc : Half) :
    Sure (Steady s) (exec (.getScdRaw alloc) s) ∧ Sure (Steady s) (exec (.getScdQ alloc) s) ∧
    Sure (Steady s) (exec (.getScdMcn alloc) s) ∧ ∀ format, Sure (Steady s) (exec (.getScd format alloc) s) := by
  have ⟨hraw, hq, hmcn, _⟩ := subcodeResult s alloc 0 h.state
  have hc := h.sound.cfg
  have hsureRaw : Sure (Steady s) (exec (.getScdRaw alloc) s) :=
    h.sure_reply hraw (take_fits hc (by simp) _) rfl rfl rfl rfl
  have hsureQ : Sure (Steady s) (exec (.getScdQ alloc) s) :=
    h.sure_reply hq (take_fits hc (by simp) _) rfl rfl rfl rfl
  have hsureMcn : Sure (Steady s) (exec (.getScdMcn alloc) s) :=
    h.sure_reply hmcn (take_fits hc (by simp) _) rfl rfl rfl rfl
  refine ⟨hsureRaw, hsureQ, hsureMcn, fun format => ?_⟩
  have ⟨_, _, _, hformat⟩ := subcodeResult s alloc format h.state
  rw [hformat]
  exact .ite (fun _ => hsureRaw) fun _ => .ite (fun _ => hsureQ) fun _ => .ite (fun _ => hsureMcn) fun _ =>
    h.sure_paramError

/-- CD_PLAY with every parameter type ends the command (R233 to R235). -/
theorem PacketRunning.sure_play {s : State} (h : PacketRunning s) (start stop : Addr3) (rep : BitVec 4) :
    Sure (Steady s) (exec (.cdPlayFad start rep stop) s) ∧ Sure (Steady s) (exec (.cdPlayMsf start rep stop) s) ∧
    Sure (Steady s) (exec .cdPlayResume s) ∧ ∀ ptype, Sure (Steady s) (exec (.cdPlay ptype start rep stop) s) := by
  have ⟨hfad, hmsf, hresume, _⟩ := cdPlayResult s start stop rep 0 h.state
  have hsureResume : Sure (Steady s) (exec .cdPlayResume s) := by
    rw [hresume]
    exact .ite (fun _ => h.sure_done rfl rfl rfl rfl) fun _ => h.sure_done rfl rfl rfl rfl
  refine ⟨h.sure_done hfad rfl rfl rfl, h.sure_done hmsf rfl rfl rfl, hsureResume, fun ptype => ?_⟩
  have ⟨_, _, _, htype⟩ := cdPlayResult s start stop rep ptype h.state
  rw [htype]
  exact .ite (fun _ => h.sure_done rfl rfl rfl rfl) fun _ => .ite (fun _ => h.sure_done rfl rfl rfl rfl) fun _ =>
    .ite (fun _ => hsureResume) fun _ => h.sure_paramError

/-- CD_SEEK with every parameter type ends the command (R236). -/
theorem PacketRunning.sure_seek {s : State} (h : PacketRunning s) (ptype : BitVec 4) (target : Addr3) :
    Sure (Steady s) (exec (.cdSeek ptype target) s) := by
  rw [cdSeekResult s target ptype h.state]
  exact .ite (fun _ => h.sure_done rfl rfl rfl rfl) fun _ => .ite (fun _ => h.sure_done rfl rfl rfl rfl) fun _ =>
    .ite (fun _ => h.sure_done rfl rfl rfl rfl) fun _ => h.sure_paramError

/-- SET_MODE opens a window for the host to write, inside the writable bytes, or ends the command (R204). -/
theorem PacketRunning.sure_setMode {s : State} (h : PacketRunning s) (offset length : Byte) :
    Sure (Steady s) (exec (.setMode offset length) s) := by
  have ⟨_, _, _, _, _, _, _, hbuffer, _⟩ := h.sound.cfg
  have hlength := length.isLt
  rw [setModeResult s offset length h.state]
  refine .ite (fun hwords => sure_next ⟨?window, rfl⟩) fun _ => sure_next ⟨?ended, rfl⟩
  case window =>
    refine Sound.inv ?_ ⟨⟨rfl, h.ready, rfl, rfl⟩, ?_, rfl, ?_, h.swap⟩
    · refine { h.sound with pioIndex := Nat.zero_le _, pioSize := ?_, pioNext := .inr (.inr rfl), modeOffset := ?_ }
      · dsimp only at hwords ⊢
        omega
      · exact Nat.min_le_right _ _
    · dsimp only at hwords ⊢
      omega
    · dsimp only at hwords ⊢
      omega
  case ended =>
    refine Sound.packetDone_inv ?_ rfl
    exact { h.sound with
      pioIndex := Nat.le_refl _
      pioSize := Nat.zero_le _
      pioNext := .inr (.inr rfl)
      modeOffset := Nat.min_le_right _ _ }

/-- Every packet command keeps the invariant and what `keptOf` names. -/
theorem PacketRunning.sure_command {i : Instr} {s : State} (h : PacketRunning s) (hformat : i.format = .pkt12) :
    Sure (Steady s) (exec i s) := by
  have hc := h.sound.cfg
  cases i with
  | testUnit => exact h.sure_done (testUnitResult s h.state) rfl rfl rfl
  | reqStat offset length =>
    have ⟨hstat, _⟩ := reqStatModeResult s offset length h.state
    exact h.sure_reply hstat (take_byte_fits hc _ _) rfl rfl rfl rfl
  | reqMode offset length =>
    have ⟨_, hmode⟩ := reqStatModeResult s offset length h.state
    exact h.sure_reply hmode (take_byte_fits hc _ _) rfl rfl rfl rfl
  | setMode offset length => exact h.sure_setMode offset length
  | reqError length => exact h.sure_reply (reqErrorResult s length h.state) (take_byte_fits hc _ _) rfl rfl rfl rfl
  | getToc area req =>
    have ⟨⟨_, _, _, _, htoc, _⟩, _⟩ := hc
    refine h.sure_reply (execGetToc_next area req h.state) ?_ rfl rfl rfl rfl
    rw [List.length_take, mediaAnswer_length]
    exact Nat.le_trans (Nat.min_le_right _ _) htoc
  | reqSes session length =>
    exact h.sure_reply (execReqSes_next session length h.state) (take_byte_fits hc _ _) rfl rfl rfl rfl
  | cdOpen =>
    have ⟨hopen, _⟩ := openScanResult s h.state
    exact h.sure_done hopen rfl rfl rfl
  | cdScan => exact h.sure_done (packetCommand_done h.state) rfl rfl rfl
  | cdRead flags start count =>
    rw [exec_cdRead]
    exact h.sure_beginRead flags start (Nat.lt_trans count.isLt (by decide))
  | cdRead2 flags start count =>
    rw [exec_cdRead2]
    exact h.sure_beginRead flags start (Nat.lt_trans count.isLt (by decide))
  | cdPlay ptype start rep stop =>
    have ⟨_, _, _, hplay⟩ := h.sure_play start stop rep
    exact hplay ptype
  | cdPlayFad start rep stop =>
    have ⟨hfad, _⟩ := h.sure_play start stop rep
    exact hfad
  | cdPlayMsf start rep stop =>
    have ⟨_, hmsf, _⟩ := h.sure_play start stop rep
    exact hmsf
  | cdPlayResume =>
    have ⟨_, _, hresume, _⟩ := h.sure_play ⟨0, 0, 0⟩ ⟨0, 0, 0⟩ 0
    exact hresume
  | cdSeek ptype target => exact h.sure_seek ptype target
  | getScd format alloc =>
    have ⟨_, _, _, hscd⟩ := h.sure_subcode alloc
    exact hscd format
  | getScdRaw alloc =>
    have ⟨hraw, _⟩ := h.sure_subcode alloc
    exact hraw
  | getScdQ alloc =>
    have ⟨_, hq, _⟩ := h.sure_subcode alloc
    exact hq
  | getScdMcn alloc =>
    have ⟨_, _, hmcn, _⟩ := h.sure_subcode alloc
    exact hmcn
  | pktUnknown op =>
    have ⟨hunknown, _⟩ := packetErrorResult s op h.state
    exact h.sure_done hunknown rfl rfl rfl
  | pktParamError => exact h.sure_paramError
  | pktMediaAbsent =>
    have ⟨_, _, habsent⟩ := packetErrorResult s 0 h.state
    exact h.sure_done habsent rfl rfl rfl
  | _ => cases hformat

/-! ### ATA commands -/

/-- The state in which an ATA command runs (R122): sound buffers and no data asked for. -/
structure AtaRunning (s : State) : Prop where
  sound : Sound s
  state : s.drive.state = .processAtaCommand
  ready : s.drive.status.ready = false
  drq : s.drive.status.drq = false

/-- Every ATA command but SOFT_RESET keeps the invariant and what `keptOf` names; while a swap is pending only the
rejection runs (R180). -/
theorem AtaRunning.sure_command {i : Instr} {s : State} (h : AtaRunning s) (hformat : i.format = .ata)
    (hsoft : i ≠ .softReset) (hswap : i ≠ .ataSwapReject → s.drive.discSwapPending = false) :
    Sure (Steady s) (exec i s) := by
  have hc := h.sound.cfg
  by_cases hpacket : i = .packet
  · subst hpacket
    have ⟨_, hpacketBytes, _⟩ := hc
    refine sure_of_eq (packetResult s h.state) ⟨Sound.inv ?_ ⟨⟨rfl, h.ready, rfl, rfl⟩, ?_, hswap nofun⟩, rfl⟩
    · exact { h.sound with packetLength := List.length_replicate, packetIndex := Nat.zero_le _ }
    · show 0 < s.cfg.packetBytes / 2
      omega
  by_cases hidentify : i = .identifyDevice
  · subst hidentify
    have ⟨⟨_, _, _, _, _, _, _, _, _, _, _, hblock⟩, ⟨_, _, _, _, _, _, _, hfits, _⟩⟩ := hc
    refine sure_of_eq (identifyDeviceResult s h.state hblock) ⟨Sound.replied_inv ?_ ?_ ?_ ?_, keptOf_replied _ _⟩
    · exact h.sound.congr rfl
    · exact hblock.trans_le hfits
    · exact h.ready
    · exact hswap nofun
  · obtain ⟨abort, check, u, hexec, -, hbuffers, hdrq, hkept⟩ := ataCommand_done hformat hpacket hidentify h.state
    exact sure_of_eq hexec ⟨(h.sound.congr hbuffers).ataDone_inv (hdrq h.drq) abort check, hkept hsoft⟩

end Sys2Proof.Machine
end

section
/-! PROOFS. The host accesses keep the invariant and what `keptOf` names (R150 to R164), but for the last word of SET_MODE's
data and the command SOFT_RESET, which write what they write and keep the rest. -/

namespace Sys2Proof.Machine

/-! ### The Data port -/

/-- A Data read takes a word, and at a window's end ends the command or opens the next window (R151). -/
theorem sure_dataRead {s : State} (h : s.Inv) : Sure (Steady s) (dataRead .w16 s) := by
  by_cases hstate : s.drive.state = .pioSendData
  case neg =>
    rw [dataRead_outside (.inl hstate)]
    exact sure_ignoredRead h _
  case pos =>
    obtain ⟨hrow, hindex, hnext, hswap⟩ := (resting_pioSendData hstate).1 h.resting
    have hready : s.drive.status.ready = false := by
      simp only [StatusRow, hstate] at hrow
      exact hrow.2.1
    have hc := h.sound.cfg
    have htaken : Sound (wordTaken s) := { h.sound with pioIndex := hindex }
    by_cases hlast : s.drive.pio.index + 1 = s.drive.pio.size
    case neg =>
      have hbefore : s.drive.pio.index + 1 < s.drive.pio.size := by omega
      refine sure_of_eq (dataRead_before_last hstate hbefore) ⟨htaken.inv ?_, rfl⟩
      exact (resting_pioSendData (s := wordTaken s) hstate).2 ⟨hrow, hbefore, hnext, hswap⟩
    case pos =>
      rcases hnext with hnext | hnext
      · exact sure_of_eq (dataRead_last_pioEnd hstate hlast hnext)
          ⟨Sound.packetDone_inv (s := { wordTaken s with drive.status.drq := false }) (htaken.congr rfl) rfl, rfl⟩
      by_cases hremaining : s.drive.rr.remaining = 0
      · exact sure_of_eq (dataRead_last_noSector hstate hlast hnext hremaining)
          ⟨Sound.replied_inv (s := (wordTaken s).nextDraw) (htaken.congr rfl) (Nat.zero_le _) hready hswap,
            keptOf_replied [] (wordTaken s).nextDraw⟩
      · have hpos : s.drive.rr.remaining.toNat ≠ 0 := fun h0 => hremaining (BitVec.eq_of_toNat_eq h0)
        refine sure_of_eq (dataRead_last_readSectorPio hc.2 hstate hlast hnext hremaining)
          ⟨Sound.windowOpen_inv (s := advanceRead _ (wordTaken s).nextDraw) ?_ ?_ ?_ (window_next _) hready hswap, rfl⟩
        · exact htaken.congr rfl
        · rw [mediaSectors_length]
          exact window_fits hc _ _
        · rw [mediaSectors_length]
          exact window_words hc hpos _

/-- A decoded packet, or the media-absent error in its place, is a packet command. -/
theorem selectPacket_format (c : Cfg) (p : List Byte) (s : State) :
    (selectPacket s (decodePacket c p)).format = .pkt12 := by
  obtain ⟨hformat, -⟩ := wellFormed_decodePacket c p
  unfold selectPacket
  split
  · rfl
  · exact hformat

/-- A Data write in `WaitPacket` stores a word, and the last one runs the packet's command (R152, R124). -/
theorem sure_dataWrite_packet {s : State} (h : s.Inv) (v : Half) (hstate : s.drive.state = .waitPacket) :
    Sure (Steady s) (dataWrite v s) := by
  obtain ⟨hrow, hindex, hswap⟩ := (resting_waitPacket hstate).1 h.resting
  have hword : 2 * s.drive.packet.index + 1 < s.drive.packet.bytes.length := by
    rw [h.sound.packetLength]
    omega
  have hstored : Sound (packetWordStored v s) :=
    { h.sound with
      packetLength := (setWord_length hword v).trans h.sound.packetLength
      packetIndex := hindex }
  by_cases hlast : s.drive.packet.index + 1 = s.cfg.packetBytes / 2
  case neg =>
    refine sure_of_eq (dataWrite_packet v hstate hlast) ⟨hstored.inv ?_, rfl⟩
    exact (resting_waitPacket (s := packetWordStored v s) hstate).2 ⟨hrow, Nat.lt_of_le_of_ne hindex hlast, hswap⟩
  case pos =>
    rw [dataWrite_packet_last v hstate hlast, enterProcessPacketCommand_next (s := packetWordStored v s) hstate]
    simp only [StatusRow, hstate] at hrow
    obtain ⟨-, hready, -, hcod⟩ := hrow
    have hrunning : PacketRunning (packetStarted (packetWordStored v s)) :=
      ⟨hstored.congr rfl, rfl, rfl, hready, rfl, hcod, hswap⟩
    exact hrunning.sure_command (selectPacket_format _ _ _)

/-- A Data write, unless it brings the last word of SET_MODE's data, keeps the invariant and what `keptOf` names. -/
theorem sure_dataWrite {s : State} (h : s.Inv) (v : Half)
    (hnotLast : ¬ (s.drive.state = .pioGetData ∧ s.drive.pio.index + 1 = s.drive.pio.size)) :
    Sure (Steady s) (dataWrite v s) := by
  by_cases hpacket : s.drive.state = .waitPacket
  case pos => exact sure_dataWrite_packet h v hpacket
  case neg =>
    by_cases hmode : s.drive.state = .pioGetData
    case neg =>
      rw [dataWrite_ignored v hpacket hmode]
      exact sure_ignoredStep h
    case pos =>
      obtain ⟨hrow, hindex, hnext, hfits, hswap⟩ := (resting_pioGetData hmode).1 h.resting
      have hbefore : s.drive.pio.index + 1 ≠ s.drive.pio.size := fun hlast => hnotLast ⟨hmode, hlast⟩
      have hstored : Sound (modeWordStored v s) := { h.sound with pioIndex := hindex }
      refine sure_of_eq (dataWrite_mode v hmode hbefore) ⟨hstored.inv ?_, rfl⟩
      exact (resting_pioGetData (s := modeWordStored v s) hmode).2
        ⟨hrow, Nat.lt_of_le_of_ne hindex hbefore, hnext, hfits, hswap⟩

/-- A mode block that has changed inside its writable bytes alone, and with it nothing else of what `keptOf` names. -/
structure ModeWritten (s t : State) : Prop where
  inv : t.Inv
  kept : keptOf { t with drive.modeBlock := s.drive.modeBlock } = keptOf s
  beyond : t.drive.modeBlock.drop s.cfg.modeWritableBytes = s.drive.modeBlock.drop s.cfg.modeWritableBytes

/-- The last word of SET_MODE's data writes the mode block, inside its writable bytes, and ends the command (R131). -/
theorem sure_dataWrite_mode_last {s : State} (h : s.Inv) (v : Half) (hstate : s.drive.state = .pioGetData)
    (hlast : s.drive.pio.index + 1 = s.drive.pio.size) : Sure (ModeWritten s) (dataWrite v s) := by
  obtain ⟨-, hindex, hnext, hfits, -⟩ := (resting_pioGetData hstate).1 h.resting
  have ⟨⟨_, _, _, _, _, _, _, _, hwritable, _⟩, _⟩ := h.sound.cfg
  have hblock : s.drive.setModeOffset + 2 * s.drive.pio.size ≤ s.drive.modeBlock.length := by
    rw [h.sound.modeLength]
    omega
  refine sure_of_eq (dataWrite_mode_last v hstate hlast hnext) ⟨Sound.packetDone_inv ?_ rfl, rfl, ?_⟩
  · exact { h.sound with
      pioIndex := hindex
      modeLength := (blockReplace_length (bufSlice_length _ _ _) hblock).trans h.sound.modeLength }
  · exact blockReplace_drop (bufSlice_length _ _ _) hblock hfits

/-! ### The Command port -/

/-- A Command write in `WaitCommand` finds the device ready to run an ATA command. -/
theorem ataRunning_commandLatched {s : State} (h : s.Inv) (b : Byte) (hstate : s.drive.state = .waitCommand) :
    AtaRunning (commandLatched b s) := by
  obtain ⟨-, -, hdrq⟩ := (resting_waitCommand hstate).1 h.resting
  exact ⟨h.sound.congr rfl, rfl, rfl, hdrq⟩

/-- A Command write that does not run SOFT_RESET keeps the invariant and what `keptOf` names. -/
theorem sure_commandWrite {s : State} (h : s.Inv) {w : Width} {v : BitVec 32} (hwidth : w ≠ .w32)
    (hgate : slaveSelected s.drive.driveSelect = false) (hstate : s.drive.state = .waitCommand)
    (hsoft : ¬ (s.drive.discSwapPending = false ∧ decodeAta s.cfg (v.setWidth 8) = .softReset)) :
    Sure (Steady s) (exec (.w8Command w v) s) := by
  have hrunning := ataRunning_commandLatched h (v.setWidth 8) hstate
  obtain ⟨hformat, -, -⟩ := wellFormed_decodeAta s.cfg (v.setWidth 8)
  rw [exec_w8Command_open v hwidth hgate hstate]
  cases hswap : s.drive.discSwapPending with
  | true => exact hrunning.sure_command rfl nofun fun hreject => absurd rfl hreject
  | false => exact hrunning.sure_command hformat (fun hdecoded => hsoft ⟨hswap, hdecoded⟩) fun _ => hswap

/-- The Error flags but abort that are cleared, and nothing else of what `keptOf` names that has changed. -/
structure ErrorCleared (s t : State) : Prop where
  inv : t.Inv
  kept : keptOf t = (s.hostMem, s.cfg, s.media, s.drive.discType, false, false, false, s.drive.modeBlock)

/-- A Command write that runs SOFT_RESET clears the Error flags (R183). -/
theorem sure_commandWrite_softReset {s : State} (h : s.Inv) {w : Width} {v : BitVec 32} (hwidth : w ≠ .w32)
    (hgate : slaveSelected s.drive.driveSelect = false) (hstate : s.drive.state = .waitCommand)
    (hswap : s.drive.discSwapPending = false) (hdecoded : decodeAta s.cfg (v.setWidth 8) = .softReset) :
    Sure (ErrorCleared s) (exec (.w8Command w v) s) := by
  have hrunning := ataRunning_commandLatched h (v.setWidth 8) hstate
  rw [exec_w8Command_open v hwidth hgate hstate, hswap, hdecoded]
  refine sure_of_eq (execSoftReset_next hrunning.state) ⟨Sound.ataDone_inv ?_ rfl false false, rfl⟩
  exact hrunning.sound.congr rfl

/-! ### The other ports -/

/-- Every read of a port keeps the invariant and what `keptOf` names. -/
theorem sure_readOf {w : Width} {p : Port} {i : Instr} (hread : readOf w p = some i) {s : State} (h : s.Inv) :
    Sure (Steady s) (exec i s) := by
  cases p with
  | data =>
    cases hread
    exact .ite (fun _ => sure_refused) fun hwidth => .ite (fun _ => sure_ignoredRead h w) fun _ =>
      not_not.1 hwidth ▸ sure_dataRead h
  | error | interruptReason | sectorCount | sectorNumber | byteCountLow | byteCountHigh | driveSelect | status
  | altStatus =>
    cases hread
    simp only [exec]
    exact sure_portRead h w ⟨h, rfl⟩
  | features | command | deviceControl => cases hread

/-- Every write of a port but Data and Command keeps the invariant and what `keptOf` names. -/
theorem sure_writeOf {w : Width} {v : BitVec 32} {p : Port} {i : Instr} (hwrite : writeOf w v p = some i)
    (hdata : p ≠ .data) (hcommand : p ≠ .command) {s : State} (h : s.Inv) : Sure (Steady s) (exec i s) := by
  cases p with
  | data => exact absurd rfl hdata
  | command => exact absurd rfl hcommand
  | features | sectorCount | sectorNumber | byteCountLow | byteCountHigh =>
    cases hwrite
    simp only [exec]
    exact sure_portWrite h fun _ _ => sure_next ⟨h, rfl⟩
  | driveSelect =>
    cases hwrite
    exact .ite (fun _ => sure_refused) fun _ => sure_next ⟨h, rfl⟩
  | deviceControl =>
    cases hwrite
    rw [exec_w8DeviceControl]
    exact sure_portWrite h fun _ _ => sure_ignoredStep h
  | error | interruptReason | status | altStatus => cases hwrite

/-- What decodes to no operation keeps the invariant and what `keptOf` names. -/
theorem sure_runUndecoded (u : Undecoded) {s : State} (h : s.Inv) : Sure (Steady s) (runUndecoded u s) := by
  cases u with
  | unmappedAccess w d =>
    cases d with
    | read => exact .ite (fun _ => sure_refused) fun _ => sure_ignoredRead h w
    | write => exact .ite (fun _ => sure_refused) fun _ => sure_ignoredStep h
  | dmaSet a l d => exact sure_next ⟨h, rfl⟩
  | packetLength n => exact sure_ignoredStep h

end Sys2Proof.Machine
end

section
/-! PROOFS. The agents keep the invariant (R252 to R254, R280 to R282, R340 to R344): what a DMA tick, a swap-done tick and
a full reset change of what `keptOf` names. -/

namespace Sys2Proof.Machine

/-! ### The DMA engine -/

theorem sure_execDmaStart {s : State} (h : s.Inv) : Sure (Steady s) (execDmaStart s) :=
  .ite (fun _ => sure_ignoredStep h) fun _ => .ite (fun _ => sure_ignoredStep h) fun _ => sure_next ⟨h, rfl⟩

/-- A refill keeps the buffers sound: what it reads fits the cache (R27, R251). -/
theorem Sound.dmaRefill {s : State} (hs : Sound s) : Sound (dmaRefill s) := by
  rw [dmaRefill_eq]
  split
  case isFalse => exact hs
  case isTrue =>
    refine { hs with cache := ?_ }
    show 0 + min _ s.cfg.cacheSectors * sectorBytes s.cfg s.drive.rr.sectorSize ≤ _
    rw [Nat.zero_add]
    exact Nat.mul_le_mul (Nat.min_le_right _ _) (sectorBytes_le hs.cfg.2 _)

/-- A tick drains no more than the cache holds. -/
theorem dmaCount_le_avail (s : State) : dmaCount s ≤ s.drive.cache.avail :=
  Nat.le_trans (Nat.min_le_right _ _) (Nat.min_le_left _ _)

/-- A move keeps the buffers sound: what it drains it takes from what was there. -/
theorem Sound.dmaMoved {s : State} (hs : Sound s) : Sound (dmaMoved s) := by
  have hr : Sound (Machine.dmaRefill s) := hs.dmaRefill
  have hcount := dmaCount_le_avail (Machine.dmaRefill s)
  have hcache := hr.cache
  rw [dmaMoved_eq]
  refine { hr with mem := memWriteBytes_wf _ _ hr.mem, cache := ?_ }
  simp only [CacheSound] at hcache ⊢
  omega

/-- A tick that has stored the bytes of a chunk from the cursor on, and has changed nothing else of what `keptOf` names. -/
structure ChunkStored (s t : State) : Prop where
  inv : t.Inv
  kept : keptOf { t with hostMem := s.hostMem } = keptOf s
  stored : ∃ bytes : List Byte, bytes.length = dmaCount (dmaRefill s) ∧
    t.hostMem = memWriteBytes s.hostMem s.dma.cursor bytes

/-- Steps 4 and 5 keep the invariant: the command goes on in `ReadSectorDma`, or is over. -/
theorem Sound.dmaFinish_inv {s : State} (hs : Sound s) (hrow : StatusRow s.drive)
    (hstate : s.drive.state = .readSectorDma) (hswap : s.drive.discSwapPending = false) : (dmaFinish s).Inv := by
  simp only [StatusRow, hstate] at hrow
  have hdone : Sound (dmaFinish s) := hs.congr rfl
  by_cases hfinished : dmaFinished s
  case pos =>
    refine hdone.inv ((resting_waitCommand (if_pos hfinished)).2 ⟨if_pos hfinished, if_pos hfinished, ?_⟩)
    obtain ⟨-, -, hdrq, -⟩ := hrow
    exact hdrq
  case neg =>
    refine hdone.inv ((resting_readSectorDma (if_neg hfinished)).2 ⟨?_, hswap⟩)
    simp only [StatusRow, dmaFinish, if_neg hfinished]
    exact hrow

/-- A DMA tick that runs (R254). -/
theorem sure_dmaChunk {s : State} (h : s.Inv) (hstate : s.drive.state = .readSectorDma) :
    Sure (ChunkStored s) (dmaChunk s) := by
  obtain ⟨hrow, hswap⟩ := (resting_readSectorDma hstate).1 h.resting
  have hsound : Sound (dmaMoved s) := h.sound.dmaMoved
  refine sure_of_eq (dmaChunk_next_dmaFinish hstate) ⟨hsound.dmaFinish_inv ?row ?state ?swap, ?kept, _,
    bufSlice_length (dmaRefill s).drive.cache.bytes (dmaRefill s).drive.cache.rd _, ?stored⟩
  all_goals simp only [dmaFinish, keptOf, dmaMoved_eq, dmaRefill_fields]
  case row => exact hrow
  case state => exact hstate
  case swap => exact hswap

/-- The guards of a DMA tick that runs (R254). -/
structure DmaRuns (s : State) : Prop where
  scheduled : s.drive.dmaScheduled = true
  start : s.dma.start = true
  enable : s.dma.enable = true
  state : s.drive.state = .readSectorDma
  direction : s.dma.direction = s.cfg.dmaToHost

/-- A DMA tick that does not run changes at most its own schedule. -/
theorem sure_execTickDma_stopped {s : State} (h : s.Inv) (hstopped : ¬ DmaRuns s) :
    Sure (Steady s) (execTickDma s) :=
  .ite (fun _ => sure_next ⟨h, rfl⟩) fun hscheduled => .ite (fun _ => sure_next ⟨h, rfl⟩) fun hflags =>
    .ite (fun _ => sure_next ⟨h, rfl⟩) fun hstate => .ite (fun _ => sure_next ⟨h, rfl⟩) fun hdirection =>
      have ⟨hstart, henable⟩ := not_or.1 hflags
      absurd ⟨Bool.eq_true_of_not_eq_false hscheduled, Bool.eq_true_of_not_eq_false hstart,
        Bool.eq_true_of_not_eq_false henable, not_not.1 hstate, not_not.1 hdirection⟩ hstopped

theorem sure_execTickDma_running {s : State} (h : s.Inv) (hruns : DmaRuns s) :
    Sure (ChunkStored s) (execTickDma s) := by
  rw [execTickDma_running hruns.scheduled hruns.start hruns.enable hruns.state hruns.direction]
  exact sure_dmaChunk h hruns.state

/-! ### The player, the swap and the resets -/

/-- The audio tick keeps the invariant: the player is no part of it. -/
theorem sure_execTickAudio {s : State} (h : s.Inv) : Sure (Steady s) (execTickAudio s) := by
  unfold execTickAudio
  refine .ite (fun _ => sure_next (Steady.emit ?_ _)) fun _ => sure_next (Steady.emit ⟨h, rfl⟩ _)
  dsimp only
  split
  · unfold audioEndReached
    split
    · exact ⟨h, rfl⟩
    · exact ⟨h, rfl⟩
  · exact ⟨h, rfl⟩

/-- A disc type read from the backend, and nothing else of what `keptOf` names that has changed. -/
structure DiscRead (s t : State) : Prop where
  inv : t.Inv
  kept : keptOf { t with drive.discType := s.drive.discType } = keptOf s
  read : t.drive.discType = s.media.discType

/-- The swap-done tick of a pending swap reads the disc type (R344). -/
theorem sure_execTickSwap_pending {s : State} (h : s.Inv) (hpending : s.drive.discSwapPending = true) :
    Sure (DiscRead s) (execTickSwap s) := by
  have ⟨_, _, _, _, _, _, _, _, hwait⟩ := h
  have hstate := hwait hpending
  have ⟨_, hdone⟩ := swapDone s
  refine sure_of_eq (hdone hpending) ⟨Sound.inv (h.sound.congr rfl) ?_, rfl, rfl⟩
  exact (resting_waitCommand (by exact hstate)).2 ((resting_waitCommand hstate).1 h.resting)

/-- A device at its reset values, with the backend's disc type (R340): of what `keptOf` names, host memory and the
configuration are kept. -/
structure ResetDone (s t : State) : Prop where
  inv : t.Inv
  kept : keptOf t = (s.hostMem, s.cfg, t.media, t.media.discType, false, false, false, s.cfg.modeBlockReset)

/-- A reset device has sound buffers. -/
theorem Sound.reset {s : State} (hs : Sound s) (disc : DiscType) : Sound { s with drive := resetDrive s.cfg disc } := by
  have ⟨⟨_, _, _, _, _, _, _, _, _, hblock, _⟩, _⟩ := hs.cfg
  exact {
    cfg := hs.cfg
    mem := hs.mem
    packetLength := List.length_replicate
    packetIndex := Nat.zero_le _
    pioIndex := Nat.le_refl _
    pioSize := Nat.zero_le _
    pioNext := .inl rfl
    modeLength := hblock
    modeOffset := Nat.zero_le _
    cache := Nat.zero_le _ }

/-- A hard reset (R340). -/
theorem sure_execEventHardReset {s : State} (h : s.Inv) :
    Sure (fun t => ResetDone s t ∧ t.media = s.media) (execEventHardReset s) :=
  sure_next ⟨⟨Sound.inv (s := fullReset s) (h.sound.reset s.media.discType) ⟨rfl, rfl, rfl⟩, rfl⟩, rfl⟩

/-- A tray event resets the device with its own backend (R342). -/
theorem sure_discChange {s : State} (h : s.Inv) (m : Media) :
    Sure (fun t => ResetDone s t ∧ t.media = m) (.next (discChange m s)) := by
  rw [discChange, unitAttention_eq]
  refine sure_next ⟨⟨Sound.inv ?_ ⟨rfl, rfl, rfl⟩, rfl⟩, rfl⟩
  exact (h.sound.reset m.discType).congr rfl

/-- A media swap resets the device with its own backend (R343). -/
theorem sure_execEventSwapBegin {s : State} (h : s.Inv) (m : Media) :
    Sure (fun t => ResetDone s t ∧ t.media = m) (execEventSwapBegin m s) := by
  refine sure_next ⟨⟨Sound.inv ?_ ⟨rfl, rfl, rfl⟩, rfl⟩, rfl⟩
  exact (h.sound.reset m.discType).congr rfl

end Sys2Proof.Machine
end

section
/-! PROOFS. Every step from a state of the invariant: what kind of change it makes, and the three statements that follow
(R62, R136, R137, R133). -/

namespace Sys2Proof.Machine

/-! ### The steps that do more than a steady one -/

/-- The next step is a full reset (R340, R342, R343). -/
def FullResetNext (s : State) : Prop := ∃ x rest, s.pending = x :: rest ∧ fullResetInput x = true

/-- The next step runs SOFT_RESET (R162, R183). -/
def SoftResetNext (s : State) : Prop :=
  ∃ w a v rest, s.pending = .write w a v :: rest ∧ w ≠ .w32 ∧ s.drive.driveSelect.getLsbD 4 = false ∧
    lookupPort s.cfg a .write = some .command ∧ v.setWidth 8 = s.cfg.opAtaSoftReset ∧
    s.drive.state = .waitCommand ∧ s.drive.discSwapPending = false

/-- The next step brings the last word of SET_MODE's data (R131). -/
def LastModeWordNext (s : State) : Prop :=
  ∃ a v rest, s.pending = .write .w16 a v :: rest ∧ s.drive.driveSelect.getLsbD 4 = false ∧
    lookupPort s.cfg a .write = some .data ∧ s.drive.state = .pioGetData ∧ s.drive.pio.index + 1 = s.drive.pio.size

/-- The next step is a Command write outside `WaitCommand`, past the width check and the gate (R162, R133). -/
def CommandFaultNext (s : State) : Prop :=
  ∃ w a v rest, s.pending = .write w a v :: rest ∧ lookupPort s.cfg a .write = some .command ∧ w ≠ .w32 ∧
    s.drive.driveSelect.getLsbD 4 = false ∧ s.drive.state ≠ .waitCommand

/-- The next step is an event that mounts the backend `m` (R342, R343). -/
def MountNext (s : State) (m : Media) : Prop :=
  ∃ rest, s.pending = .trayOpen m :: rest ∨ s.pending = .trayClose m :: rest ∨ s.pending = .swapBegin m :: rest

/-- The change a step makes from a state of the invariant: one of six, each with the input that makes it. -/
inductive Change (s t : State) : Prop where
  | steady (h : Steady s t)
  | stored (hinput : ∃ rest, s.pending = .tickDma :: rest) (hruns : DmaRuns s) (h : ChunkStored s t)
  | discRead (hinput : ∃ rest, s.pending = .tickSwap :: rest) (hpending : s.drive.discSwapPending = true)
      (h : DiscRead s t)
  | reset (hinput : FullResetNext s) (hmedia : t.media = s.media ∨ MountNext s t.media) (h : ResetDone s t)
  | errorCleared (hinput : SoftResetNext s) (h : ErrorCleared s t)
  | modeWritten (hinput : LastModeWordNext s) (h : ModeWritten s t)

theorem Change.inv {s t : State} (h : Change s t) : t.Inv := by
  cases h with
  | steady h => exact h.1
  | stored _ _ h => exact h.inv
  | discRead _ _ h => exact h.inv
  | reset _ _ h => exact h.inv
  | errorCleared _ h => exact h.inv
  | modeWritten _ h => exact h.inv

/-! ### The change of every input -/

/-- A steady operation makes a steady step: the input that is taken is no part of what is kept. -/
theorem Sure.change {s : State} {rest : List Input} {r : Res} (h : Sure (Steady (takeInput rest s)) r) :
    Sure (Change s) r := h.mono fun _ hsteady => .steady hsteady

/-- What an access decodes to runs, and what decodes to nothing is steady. -/
theorem sure_runInput_orElse {s : State} {rest : List Input} {x : Input} {o : Option Port} {f : Port → Option Instr}
    {u : Undecoded} (h : s.Inv) (hdecode : decodeInput s.cfg x = orElseUndecoded (o.bind f) u)
    (hport : ∀ p i, o = some p → f p = some i → Sure (Change s) (exec i (takeInput rest s))) :
    Sure (Change s) (runInput x (takeInput rest s)) := by
  rw [runInput, show decodeInput (takeInput rest s).cfg x = _ from hdecode]
  split
  next i hi =>
    obtain ⟨p, hp, hi⟩ := orElseUndecoded_bind_ok hi
    exact hport p i hp hi
  next u' _ => exact (sure_runUndecoded (s := takeInput rest s) u' h).change

/-- A Data write (R152). -/
theorem change_dataWrite {s : State} {rest : List Input} {w : Width} {a : Addr} {v : BitVec 32} (h : s.Inv)
    (hpending : s.pending = .write w a v :: rest) (hport : lookupPort s.cfg a .write = some .data) :
    Sure (Change s) (exec (.w16Data w v) (takeInput rest s)) := by
  refine .ite (fun _ => sure_refused) fun hwidth => .ite (fun _ => (sure_ignoredStep (by exact h)).change) fun hgate => ?_
  obtain rfl : w = .w16 := not_not.1 hwidth
  by_cases hlast : s.drive.state = .pioGetData ∧ s.drive.pio.index + 1 = s.drive.pio.size
  case neg => exact (sure_dataWrite (s := takeInput rest s) h _ hlast).change
  case pos =>
    obtain ⟨hstate, hindex⟩ := hlast
    refine (sure_dataWrite_mode_last (s := takeInput rest s) h _ hstate hindex).mono fun t ht =>
      .modeWritten ⟨a, v, rest, hpending, Bool.eq_false_of_not_eq_true hgate, hport, hstate, hindex⟩ ?_
    exact ⟨ht.inv, ht.kept, ht.beyond⟩

/-- A command byte that decodes to SOFT_RESET is its opcode. -/
theorem eq_softReset_of_decodeAta {c : Cfg} {b : Byte} (h : decodeAta c b = .softReset) : b = c.opAtaSoftReset := by
  obtain ⟨-, -, hencode⟩ := wellFormed_decodeAta c b
  rw [h] at hencode
  cases hencode
  rfl

/-- A Command write that is no fault (R162). -/
theorem change_commandWrite {s : State} {rest : List Input} {w : Width} {a : Addr} {v : BitVec 32} (h : s.Inv)
    (hpending : s.pending = .write w a v :: rest) (hport : lookupPort s.cfg a .write = some .command)
    (hnoFault : ¬ CommandFaultNext s) : Sure (Change s) (exec (.w8Command w v) (takeInput rest s)) := by
  by_cases hwidth : w = .w32
  case pos =>
    rw [exec_w8Command, portWrite, if_pos hwidth]
    exact sure_refused
  cases hgate : s.drive.driveSelect.getLsbD 4 with
  | true =>
    rw [exec_w8Command, portWrite_gated (s := takeInput rest s) hwidth hgate]
    exact (sure_ignoredStep (by exact h)).change
  | false =>
    have hstate : s.drive.state = .waitCommand :=
      not_not.1 fun hstate => hnoFault ⟨w, a, v, rest, hpending, hport, hwidth, hgate, hstate⟩
    by_cases hsoft : s.drive.discSwapPending = false ∧ decodeAta s.cfg (v.setWidth 8) = .softReset
    case neg => exact (sure_commandWrite (s := takeInput rest s) h hwidth hgate hstate hsoft).change
    case pos =>
      obtain ⟨hswap, hdecoded⟩ := hsoft
      refine (sure_commandWrite_softReset (s := takeInput rest s) h hwidth hgate hstate hswap hdecoded).mono
        fun t ht => .errorCleared ?_ ⟨ht.inv, ht.kept⟩
      exact ⟨w, a, v, rest, hpending, hwidth, hgate, hport, eq_softReset_of_decodeAta hdecoded, hstate, hswap⟩

/-- A write of any port that is no fault. -/
theorem change_writeOf {s : State} {rest : List Input} {w : Width} {a : Addr} {v : BitVec 32} {p : Port} {i : Instr}
    (h : s.Inv) (hpending : s.pending = .write w a v :: rest) (hport : lookupPort s.cfg a .write = some p)
    (hwrite : writeOf w v p = some i) (hnoFault : ¬ CommandFaultNext s) :
    Sure (Change s) (exec i (takeInput rest s)) := by
  by_cases hdata : p = .data
  case pos =>
    subst hdata
    cases hwrite
    exact change_dataWrite h hpending hport
  by_cases hcommand : p = .command
  case pos =>
    subst hcommand
    cases hwrite
    exact change_commandWrite h hpending hport hnoFault
  exact (sure_writeOf hwrite hdata hcommand (s := takeInput rest s) h).change

/-- The bytes a tick moves do not depend on the inputs that are left. -/
theorem dmaCount_takeInput (rest : List Input) (s : State) :
    dmaCount (dmaRefill (takeInput rest s)) = dmaCount (dmaRefill s) := by
  simp only [dmaCount, dmaRefill_fields, takeInput]
  split
  · rfl
  · rfl

/-- A DMA tick (R254). -/
theorem change_tickDma {s : State} {rest : List Input} (h : s.Inv) (hpending : s.pending = .tickDma :: rest) :
    Sure (Change s) (execTickDma (takeInput rest s)) := by
  by_cases hruns : DmaRuns (takeInput rest s)
  case neg => exact (sure_execTickDma_stopped (by exact h) hruns).change
  case pos =>
    refine (sure_execTickDma_running (by exact h) hruns).mono fun t ht =>
      .stored ⟨rest, hpending⟩ ⟨hruns.scheduled, hruns.start, hruns.enable, hruns.state, hruns.direction⟩ ?_
    obtain ⟨bytes, hlength, hmem⟩ := ht.stored
    exact ⟨ht.inv, ht.kept, bytes, hlength.trans (dmaCount_takeInput rest s), hmem⟩

/-- A swap-done tick (R344). -/
theorem change_tickSwap {s : State} {rest : List Input} (h : s.Inv) (hpending : s.pending = .tickSwap :: rest) :
    Sure (Change s) (execTickSwap (takeInput rest s)) := by
  cases hswap : s.drive.discSwapPending with
  | false =>
    have ⟨hidle, _⟩ := swapDone (takeInput rest s)
    exact sure_of_eq (hidle hswap) (.steady ⟨h, rfl⟩)
  | true =>
    exact (sure_execTickSwap_pending (s := takeInput rest s) h hswap).mono fun t ht =>
      .discRead ⟨rest, hpending⟩ hswap ⟨ht.inv, ht.kept, ht.read⟩

/-- An event that mounts a backend and resets the device (R342, R343). -/
theorem change_mount {s : State} {rest : List Input} {m : Media} {r : Res}
    (h : Sure (fun t => ResetDone (takeInput rest s) t ∧ t.media = m) r) (hinput : FullResetNext s)
    (hmount : MountNext s m) : Sure (Change s) r :=
  h.mono fun _ ⟨ht, hmedia⟩ => .reset hinput (.inr (hmedia ▸ hmount)) ⟨ht.inv, ht.kept⟩

/-- Every input but a Command write outside `WaitCommand` makes one of the changes. -/
theorem change_runInput {s : State} {x : Input} {rest : List Input} (h : s.Inv) (hpending : s.pending = x :: rest)
    (hnoFault : ¬ CommandFaultNext s) : Sure (Change s) (runInput x (takeInput rest s)) := by
  have htaken : (takeInput rest s).Inv := h
  cases x with
  | read w a => exact sure_runInput_orElse h rfl fun p i _ hread => (sure_readOf hread htaken).change
  | write w a v =>
    exact sure_runInput_orElse h rfl fun p i hport hwrite => change_writeOf h hpending hport hwrite hnoFault
  | dmaSet a l d => exact (sure_runUndecoded (.dmaSet a l d) htaken).change
  | dmaStart => exact (sure_execDmaStart htaken).change
  | dmaEnable v => exact sure_next (.steady ⟨h, rfl⟩)
  | tickDma => exact change_tickDma h hpending
  | tickAudio => exact (sure_execTickAudio htaken).change
  | tickSwap => exact change_tickSwap h hpending
  | hardReset =>
    exact (sure_execEventHardReset htaken).mono fun t ⟨ht, hmedia⟩ =>
      .reset ⟨_, _, hpending, rfl⟩ (.inl hmedia) ⟨ht.inv, ht.kept⟩
  | trayOpen m => exact change_mount (sure_discChange htaken m) ⟨_, _, hpending, rfl⟩ ⟨rest, .inl hpending⟩
  | trayClose m => exact change_mount (sure_discChange htaken m) ⟨_, _, hpending, rfl⟩ ⟨rest, .inr (.inl hpending)⟩
  | swapBegin m =>
    exact change_mount (sure_execEventSwapBegin htaken m) ⟨_, _, hpending, rfl⟩ ⟨rest, .inr (.inr hpending)⟩

/-- Every step but a Command write outside `WaitCommand` is no fault and makes one of the changes. -/
theorem change_step {s : State} (h : s.Inv) (hnoFault : ¬ CommandFaultNext s) : Sure (Change s) (step s) := by
  cases hpending : s.pending with
  | nil =>
    rw [step_of_idle hpending]
    exact sure_next (.steady ⟨h, rfl⟩)
  | cons x rest =>
    rw [step_of_pending hpending]
    exact change_runInput h hpending hnoFault

/-- A Command write outside `WaitCommand` is a fault (R133). -/
theorem step_of_commandFault {s : State} (h : CommandFaultNext s) : step s = .fault .unmappedTransition := by
  obtain ⟨w, a, v, rest, hpending, hport, hwidth, hgate, hstate⟩ := h
  have hdecode : decodeInput s.cfg (.write w a v) = .ok (.w8Command w v) := by
    rw [decodeInput, hport]
    rfl
  rw [step_of_pending hpending, runInput, show decodeInput (takeInput rest s).cfg _ = _ from hdecode]
  exact exec_w8Command_fault (s := takeInput rest s) v hwidth hgate hstate

/-- A step that answers a next state makes one of the changes. -/
theorem change_of_step {s t : State} (h : s.Inv) (hnext : step s = .next t) : Change s t := by
  refine (change_step h fun hfault => ?_).next t hnext
  rw [step_of_commandFault hfault] at hnext
  cases hnext

/-- Settles O51: each of the six changes ends in a state of the invariant. -/
theorem stepKeepsInv : Obligations.StepKeepsInv := fun _ _ h hnext => (change_of_step h hnext).inv

/-- Settles O52: every other step is one of the six changes, and no fault. -/
theorem faultOnlyByCommandWrite : Obligations.FaultOnlyByCommandWrite := by
  intro s f h hfault
  by_contra hnoFault
  exact (change_step h hnoFault).no_fault f hfault

/-! ### What each change changes -/

/-- What `keptOf` names, one by one. -/
theorem keptOf_eq_iff {s : State} {mem : List Host.Cell} {cfg : Cfg} {media : Media} {disc : DiscType}
    {ili eom mcr : Bool} {block : List Byte} : keptOf s = (mem, cfg, media, disc, ili, eom, mcr, block) ↔
      s.hostMem = mem ∧ s.cfg = cfg ∧ s.media = media ∧ s.drive.discType = disc ∧ s.drive.error.ili = ili ∧
      s.drive.error.eom = eom ∧ s.drive.error.mcr = mcr ∧ s.drive.modeBlock = block := by
  simp only [keptOf, Prod.mk.injEq]

/-- What a step has changed, each with the step that may. -/
structure Accounted (s t : State) : Prop where
  hostMem : t.hostMem = s.hostMem ∨ (∃ rest, s.pending = .tickDma :: rest) ∧ DmaRuns s ∧ ChunkStored s t
  cfg : t.cfg = s.cfg
  media : t.media = s.media ∨ MountNext s t.media
  discType : t.drive.discType = s.drive.discType ∨ t.drive.discType = t.media.discType ∧
    (FullResetNext s ∨ (∃ rest, s.pending = .tickSwap :: rest) ∧ s.drive.discSwapPending = true)
  error : (t.drive.error.ili = s.drive.error.ili ∧ t.drive.error.eom = s.drive.error.eom ∧
      t.drive.error.mcr = s.drive.error.mcr) ∨
    t.drive.error.ili = false ∧ t.drive.error.eom = false ∧ t.drive.error.mcr = false ∧
      (FullResetNext s ∨ SoftResetNext s)
  modeBlock : t.drive.modeBlock = s.drive.modeBlock ∨ FullResetNext s ∨ LastModeWordNext s
  beyond : t.drive.modeBlock.drop s.cfg.modeWritableBytes = s.drive.modeBlock.drop s.cfg.modeWritableBytes ∨
    FullResetNext s ∧ t.drive.modeBlock = s.cfg.modeBlockReset

theorem Change.accounted {s t : State} (h : Change s t) : Accounted s t := by
  cases h with
  | steady h =>
    obtain ⟨hmem, hcfg, hmedia, hdisc, hili, heom, hmcr, hblock⟩ := keptOf_eq_iff.1 h.2
    exact ⟨.inl hmem, hcfg, .inl hmedia, .inl hdisc, .inl ⟨hili, heom, hmcr⟩, .inl hblock, .inl (hblock ▸ rfl)⟩
  | stored hinput hruns h =>
    obtain ⟨-, hcfg, hmedia, hdisc, hili, heom, hmcr, hblock⟩ := keptOf_eq_iff.1 h.kept
    exact ⟨.inr ⟨hinput, hruns, h⟩, hcfg, .inl hmedia, .inl hdisc, .inl ⟨hili, heom, hmcr⟩, .inl hblock,
      .inl (congrArg _ hblock)⟩
  | discRead hinput hpending h =>
    obtain ⟨hmem, hcfg, hmedia, -, hili, heom, hmcr, hblock⟩ := keptOf_eq_iff.1 h.kept
    exact ⟨.inl hmem, hcfg, .inl hmedia, .inr ⟨h.read.trans (congrArg _ hmedia.symm), .inr ⟨hinput, hpending⟩⟩,
      .inl ⟨hili, heom, hmcr⟩, .inl hblock, .inl (congrArg _ hblock)⟩
  | reset hinput hmedia h =>
    obtain ⟨hmem, hcfg, -, hdisc, hili, heom, hmcr, hblock⟩ := keptOf_eq_iff.1 h.kept
    exact ⟨.inl hmem, hcfg, hmedia, .inr ⟨hdisc, .inl hinput⟩, .inr ⟨hili, heom, hmcr, .inl hinput⟩,
      .inr (.inl hinput), .inr ⟨hinput, hblock⟩⟩
  | errorCleared hinput h =>
    obtain ⟨hmem, hcfg, hmedia, hdisc, hili, heom, hmcr, hblock⟩ := keptOf_eq_iff.1 h.kept
    exact ⟨.inl hmem, hcfg, .inl hmedia, .inl hdisc, .inr ⟨hili, heom, hmcr, .inr hinput⟩, .inl hblock,
      .inl (congrArg _ hblock)⟩
  | modeWritten hinput h =>
    obtain ⟨hmem, hcfg, hmedia, hdisc, hili, heom, hmcr, -⟩ := keptOf_eq_iff.1 h.kept
    exact ⟨.inl hmem, hcfg, .inl hmedia, .inl hdisc, .inl ⟨hili, heom, hmcr⟩, .inr (.inr hinput), .inl h.beyond⟩

/-- A byte of host memory that a chunk changes is one of those it stores (R60, R254). -/
theorem ChunkStored.address {s t : State} (h : ChunkStored s t) (hwf : Memory.wf s.hostMem) {a : Nat}
    (ha : memRead t.hostMem a ≠ memRead s.hostMem a) :
    ∃ k, k < dmaCount (dmaRefill s) ∧ a = storeAddr s.dma.cursor k := by
  obtain ⟨bytes, hlength, hmem⟩ := h.stored
  by_contra hnot
  refine ha ?_
  rw [hmem]
  exact memRead_memWriteBytes_of_not_stored hwf fun k hk hstored => hnot ⟨k, hlength ▸ hk, hstored⟩

/-- Settles O55: each clause is what the step's change accounts for. -/
theorem changedOnlyBy : Obligations.ChangedOnlyBy := by
  intro s t h hnext
  have ht := (change_of_step h hnext).accounted
  refine ⟨fun a ha => ?_, ht.cfg, ht.media.resolve_left, ht.discType.resolve_left, fun herror => ?_,
    ht.modeBlock.resolve_left, ht.beyond.resolve_left⟩
  · obtain ⟨hinput, hruns, hstored⟩ := ht.hostMem.resolve_left fun hmem => ha (by rw [hmem])
    exact ⟨hinput, hruns.scheduled, hruns.start, hruns.enable, hruns.state, hruns.direction,
      hstored.address h.sound.mem ha⟩
  · refine ht.error.resolve_left fun ⟨hili, heom, hmcr⟩ => ?_
    rcases herror with hne | hne | hne
    · exact hne hili
    · exact hne heom
    · exact hne hmcr

end Sys2Proof.Machine
end

section
/-! PROOFS. The only refusal is an access of a wrong width (R53, R306): every operation past the width check answers a next
state or a fault. -/

namespace Sys2Proof.Machine

/-! ### Outcomes that are no refusal -/

/-- An outcome that is no refusal. -/
structure Accepted (r : Res) : Prop where
  not_refused : ∀ q, r ≠ .refused q

theorem accepted_next {t : State} : Accepted (.next t) := ⟨fun _ => nofun⟩

theorem accepted_fault {f : Fault} : Accepted (.fault f) := ⟨fun _ => nofun⟩

/-- A sequence is accepted if its parts are. -/
theorem Accepted.andThen {r : Res} {k : State → Res} (hr : Accepted r) (hk : ∀ u, Accepted (k u)) :
    Accepted (andThen r k) := by
  cases r with
  | next u => exact hk u
  | fault f => exact accepted_fault
  | refused q => exact absurd rfl (hr.not_refused q)

theorem Accepted.ite {c : Prop} [Decidable c] {a b : Res} (ha : Accepted a) (hb : Accepted b) :
    Accepted (if c then a else b) := by
  split
  · exact ha
  · exact hb

/-! ### Transitions and entry actions -/

theorem moveTo_accepted (p : Proto) (s : State) : Accepted (moveTo p s) := .ite accepted_next accepted_fault

theorem enterWaitCommand_accepted (s : State) : Accepted (enterWaitCommand s) :=
  (moveTo_accepted _ s).andThen fun _ => accepted_next

theorem enterWaitPacket_accepted (s : State) : Accepted (enterWaitPacket s) :=
  (moveTo_accepted _ s).andThen fun _ => accepted_next

theorem enterProcessPacketDone_accepted (s : State) : Accepted (enterProcessPacketDone s) :=
  (moveTo_accepted _ s).andThen fun _ => enterWaitCommand_accepted _

theorem enterPioEnd_accepted (s : State) : Accepted (enterPioEnd s) :=
  (moveTo_accepted _ s).andThen fun _ => enterProcessPacketDone_accepted _

theorem openPioWindow_accepted (p : Proto) (s : State) : Accepted (openPioWindow p s) :=
  (moveTo_accepted p s).andThen fun _ => accepted_next

theorem enterProcessSetMode_accepted (s : State) : Accepted (enterProcessSetMode s) :=
  (moveTo_accepted _ s).andThen fun _ => enterPioEnd_accepted _

theorem stageReply_accepted (b : List Byte) (len : Nat) (next : Proto) (s : State) :
    Accepted (stageReply b len next s) :=
  .ite (.ite (enterPioEnd_accepted _) accepted_fault) (openPioWindow_accepted _ _)

theorem stageReceive_accepted (len : Nat) (s : State) : Accepted (stageReceive len s) :=
  .ite (enterProcessSetMode_accepted _) (openPioWindow_accepted _ _)

theorem enterReadSectorPio_accepted (s : State) : Accepted (enterReadSectorPio s) :=
  (moveTo_accepted _ s).andThen fun _ => stageReply_accepted _ _ _ _

theorem enterReadSectorDma_accepted (s : State) : Accepted (enterReadSectorDma s) :=
  (moveTo_accepted _ s).andThen fun _ => accepted_next

theorem enterContinuation_accepted (s : State) : Accepted (enterContinuation s) := by
  unfold enterContinuation
  split
  · exact enterPioEnd_accepted s
  · exact enterReadSectorPio_accepted s
  · exact enterProcessSetMode_accepted s
  · exact accepted_fault

/-! ### Commands -/

theorem runAta_accepted (i : Instr) (s : State) : Accepted (runAta i s) := by
  cases i with
  | packet => exact enterWaitPacket_accepted s
  | identifyDevice => exact stageReply_accepted _ _ _ _
  | nop | softReset | executeDiagnostic | setFeatures | identify | ataUnknown _ | ataSwapReject =>
    exact enterWaitCommand_accepted _
  | _ => exact accepted_fault

theorem enterProcessAtaCommand_accepted (s : State) : Accepted (enterProcessAtaCommand s) :=
  (moveTo_accepted _ s).andThen fun _ => runAta_accepted _ _

theorem execGetScd_accepted (format : BitVec 4) (alloc : Half) (s : State) : Accepted (execGetScd format alloc s) :=
  .ite (stageReply_accepted _ _ _ _) (.ite (stageReply_accepted _ _ _ _)
    (.ite (stageReply_accepted _ _ _ _) (enterProcessPacketDone_accepted _)))

theorem beginRead_accepted (flags : ReadFlags) (start : Addr3) (count : BitVec 32) (s : State) :
    Accepted (beginRead flags start count s) :=
  .ite (enterReadSectorDma_accepted _) (enterReadSectorPio_accepted _)

theorem playResume_accepted (s : State) : Accepted (playResume s) :=
  .ite (enterProcessPacketDone_accepted _) (enterProcessPacketDone_accepted _)

theorem execCdPlay_accepted (ptype : BitVec 3) (start : Addr3) (rep : BitVec 4) (stop : Addr3) (s : State) :
    Accepted (execCdPlay ptype start rep stop s) :=
  .ite (enterProcessPacketDone_accepted _) (.ite (enterProcessPacketDone_accepted _)
    (.ite (playResume_accepted s) (enterProcessPacketDone_accepted _)))

theorem execCdSeek_accepted (ptype : BitVec 4) (target : Addr3) (s : State) : Accepted (execCdSeek ptype target s) :=
  .ite (enterProcessPacketDone_accepted _) (.ite (enterProcessPacketDone_accepted _)
    (.ite (enterProcessPacketDone_accepted _) (.ite (enterProcessPacketDone_accepted _)
      (enterProcessPacketDone_accepted _))))

theorem runPacket_accepted (i : Instr) (s : State) : Accepted (runPacket i s) := by
  cases i with
  | reqStat _ _ | reqMode _ _ | reqError _ | getToc _ _ | reqSes _ _ | getScdRaw _ | getScdQ _ | getScdMcn _ =>
    exact stageReply_accepted _ _ _ _
  | setMode _ _ => exact stageReceive_accepted _ _
  | cdPlay p a r b => exact execCdPlay_accepted p a r b s
  | cdSeek p a => exact execCdSeek_accepted p a s
  | cdRead f a _ | cdRead2 f a _ => exact beginRead_accepted f a _ s
  | getScd f l => exact execGetScd_accepted f l s
  | cdPlayResume => exact playResume_accepted s
  | testUnit | cdOpen | cdScan | pktUnknown _ | cdPlayFad _ _ _ | cdPlayMsf _ _ _ | pktMediaAbsent =>
    exact enterProcessPacketDone_accepted _
  | _ => exact accepted_fault

theorem enterProcessPacketCommand_accepted (s : State) : Accepted (enterProcessPacketCommand s) :=
  (moveTo_accepted _ s).andThen fun _ => runPacket_accepted _ _

theorem dataRead_accepted (w : Width) (s : State) : Accepted (dataRead w s) :=
  .ite (Accepted.andThen (.ite (.ite accepted_fault (enterContinuation_accepted _)) accepted_next)
    fun _ => accepted_next) accepted_next

theorem dataWrite_accepted (v : Half) (s : State) : Accepted (dataWrite v s) :=
  .ite (.ite (enterProcessPacketCommand_accepted _) accepted_next)
    (.ite (.ite (.ite accepted_fault (enterContinuation_accepted _)) accepted_next) accepted_next)

/-! ### The agents -/

theorem execDmaStart_accepted (s : State) : Accepted (execDmaStart s) :=
  .ite accepted_next (.ite accepted_next accepted_next)

theorem dmaChunk_accepted (s : State) : Accepted (dmaChunk s) := by
  rw [dmaChunk_eq]
  exact Accepted.andThen (.ite (enterProcessPacketDone_accepted _) accepted_next) fun _ => accepted_next

theorem execTickDma_accepted (s : State) : Accepted (execTickDma s) :=
  .ite accepted_next (.ite accepted_next (.ite accepted_next (.ite accepted_next (dmaChunk_accepted s))))

/-! ### The width check -/

/-- An outcome that is a refusal only of a wrong width, and only if `c` holds. -/
structure RefusedOnlyIf (c : Prop) (r : Res) : Prop where
  refused : ∀ q, r = .refused q → q = .badAccessWidth ∧ c

theorem Accepted.refusedOnlyIf {c : Prop} {r : Res} (h : Accepted r) : RefusedOnlyIf c r :=
  ⟨fun q hq => absurd hq (h.not_refused q)⟩

/-- The width check, and nothing refused past it. -/
theorem refusedOnlyIf_check {c wrong : Prop} [Decidable wrong] {r : Res} (hwrong : wrong → c) (h : Accepted r) :
    RefusedOnlyIf c (if wrong then .refused .badAccessWidth else r) := by
  split
  case isTrue hw => exact ⟨by rintro _ ⟨⟩; exact ⟨rfl, hwrong hw⟩⟩
  case isFalse => exact h.refusedOnlyIf

/-- The widths that are wrong at a port (R53). -/
def WrongWidth (w : Width) (isData : Prop) : Prop := w = .w32 ∨ w = .w8 ∧ isData

/-- A width that is not 16 bits is wrong at Data. -/
theorem wrongWidth_of_ne_w16 {w : Width} {isData : Prop} (hdata : isData) (hw : w ≠ .w16) : WrongWidth w isData := by
  cases w with
  | w8 => exact .inr ⟨rfl, hdata⟩
  | w16 => exact absurd rfl hw
  | w32 => exact .inl rfl

/-- Every read of a port is refused only of a wrong width. -/
theorem exec_readOf_refusedOnlyIf {w : Width} {p : Port} {i : Instr} (hread : readOf w p = some i) (s : State) :
    RefusedOnlyIf (WrongWidth w (p = .data)) (exec i s) := by
  cases p with
  | data =>
    cases hread
    exact refusedOnlyIf_check (wrongWidth_of_ne_w16 rfl) (.ite accepted_next (dataRead_accepted w s))
  | error | interruptReason | sectorCount | sectorNumber | byteCountLow | byteCountHigh | driveSelect | status
  | altStatus =>
    cases hread
    simp only [exec]
    exact refusedOnlyIf_check .inl (.ite accepted_next accepted_next)
  | features | command | deviceControl => cases hread

/-- Every write of a port is refused only of a wrong width. -/
theorem exec_writeOf_refusedOnlyIf {w : Width} {v : BitVec 32} {p : Port} {i : Instr}
    (hwrite : writeOf w v p = some i) (s : State) : RefusedOnlyIf (WrongWidth w (p = .data)) (exec i s) := by
  cases p with
  | data =>
    cases hwrite
    exact refusedOnlyIf_check (wrongWidth_of_ne_w16 rfl) (.ite accepted_next (dataWrite_accepted _ s))
  | features | sectorCount | sectorNumber | byteCountLow | byteCountHigh | deviceControl =>
    cases hwrite
    simp only [exec]
    exact refusedOnlyIf_check .inl (.ite accepted_next accepted_next)
  | driveSelect =>
    cases hwrite
    exact refusedOnlyIf_check .inl accepted_next
  | command =>
    cases hwrite
    exact refusedOnlyIf_check .inl
      (.ite accepted_next (.ite (enterProcessAtaCommand_accepted _) accepted_fault))
  | error | interruptReason | status | altStatus => cases hwrite

/-- An access that no port takes is refused only of 32 bits. -/
theorem unmappedAccess_refusedOnlyIf (w : Width) (d : Dir) (isData : Prop) (s : State) :
    RefusedOnlyIf (WrongWidth w isData) (unmappedAccess w d s) := by
  cases d with
  | read => exact refusedOnlyIf_check .inl accepted_next
  | write => exact refusedOnlyIf_check .inl accepted_next

/-- The widths that are wrong for an input, whatever it is (R53). -/
def InputWrongWidth (c : Cfg) : Input → Prop
  | .read w a => WrongWidth w (lookupPort c a .read = some .data)
  | .write w a _ => WrongWidth w (lookupPort c a .write = some .data)
  | _ => False

/-- An access runs the operation of its port or none at all, each refused only of a wrong width. -/
theorem refusedOnlyIf_access {x : Input} {w : Width} {a : Addr} {d : Dir} {f : Port → Option Instr} {s : State}
    (hdecode : decodeInput s.cfg x = orElseUndecoded ((lookupPort s.cfg a d).bind f) (.unmappedAccess w d))
    (hport : ∀ p i, f p = some i → RefusedOnlyIf (WrongWidth w (p = .data)) (exec i s)) :
    RefusedOnlyIf (WrongWidth w (lookupPort s.cfg a d = some .data)) (runInput x s) := by
  rw [runInput, hdecode]
  cases hbind : (lookupPort s.cfg a d).bind f with
  | none => exact unmappedAccess_refusedOnlyIf w d _ s
  | some i =>
    obtain ⟨p, hlookup, hi⟩ := Option.bind_eq_some_iff.1 hbind
    rw [hlookup, Option.some_inj]
    exact hport p i hi

/-- Every input is refused only if it is an access of a wrong width. -/
theorem runInput_refusedOnlyIf (x : Input) (s : State) : RefusedOnlyIf (InputWrongWidth s.cfg x) (runInput x s) := by
  cases x with
  | read w a => exact refusedOnlyIf_access rfl fun p i hread => exec_readOf_refusedOnlyIf hread s
  | write w a v => exact refusedOnlyIf_access rfl fun p i hwrite => exec_writeOf_refusedOnlyIf hwrite s
  | dmaStart => exact (execDmaStart_accepted s).refusedOnlyIf
  | tickDma => exact (execTickDma_accepted s).refusedOnlyIf
  | tickAudio => exact (Accepted.ite accepted_next accepted_next).refusedOnlyIf
  | tickSwap => exact (Accepted.ite accepted_next accepted_next).refusedOnlyIf
  | dmaSet _ _ _ | dmaEnable _ | hardReset | trayOpen _ | trayClose _ | swapBegin _ => exact accepted_next.refusedOnlyIf

/-- Settles O53: the width check of each access is its only refusal, and no other input has one. -/
theorem refusalOnlyByWidth : Obligations.RefusalOnlyByWidth := by
  intro s q hrefused
  cases hpending : s.pending with
  | nil =>
    rw [step_of_idle hpending] at hrefused
    cases hrefused
  | cons x rest =>
    rw [step_of_pending hpending] at hrefused
    obtain ⟨rfl, hwidth⟩ := (runInput_refusedOnlyIf x (takeInput rest s)).refused q hrefused
    refine ⟨rfl, ?_⟩
    cases x with
    | read w a => exact ⟨w, a, rest, .inl ⟨rfl, hwidth⟩⟩
    | write w a v => exact ⟨w, a, rest, .inr ⟨v, rfl, hwidth⟩⟩
    | _ => exact absurd hwidth not_false

end Sys2Proof.Machine
end

section
/-! PROOFS. Reading the sense twice (R205), and a PIO reply read to its end (R217, R151). -/

namespace Sys2Proof.Machine

/-! ### The sense, read twice -/

/-- A staged reply leaves the sense and the configuration as they are, and stands at the start of the buffer (R134). -/
theorem replied_fields (b : List Byte) (s : State) :
    (replied b s).drive.sense = s.drive.sense ∧ (replied b s).cfg = s.cfg ∧
      (replied b s).drive.pio.size = b.length / 2 ∧
      (replied b s).drive.pio.data = b ++ s.drive.pio.data.drop b.length := by
  unfold replied
  split
  case isTrue => exact ⟨rfl, rfl, rfl, rfl⟩
  case isFalse hshort => exact ⟨rfl, rfl, (Nat.div_eq_of_lt (by omega)).symm, rfl⟩

/-- Settles O57: the first command clears the sense whatever it was, so the second finds no sense. -/
theorem reqErrorTwice : Obligations.ReqErrorTwice := by
  intro s t n k hstate hfirst
  rw [reqErrorResult s n hstate] at hfirst
  cases hfirst
  obtain ⟨hsense, hcfg, -⟩ := replied_fields
    (([0xF0, 0x00, s.drive.sense.key.setWidth 8, 0x00, 0x00, 0x00, 0x00, 0x00, s.drive.sense.asc,
      s.drive.sense.ascq].take s.cfg.errorRecordBytes).take n.toNat) { s with drive.sense := ⟨s.cfg.skNoSense, 0, 0⟩ }
  refine ⟨_, reqErrorResult _ k rfl, ?_⟩
  simp only [hsense, hcfg]
  obtain ⟨hsense', -, hsize, hdata⟩ := replied_fields (([0xF0, 0, s.cfg.skNoSense.setWidth 8, 0, 0, 0, 0, 0, 0, 0].take
    s.cfg.errorRecordBytes).take k.toNat) _
  exact ⟨hsense', trivial, hsize, by rw [hdata, List.take_left]⟩

/-! ### A reply, read word by word -/

/-- One more run of an operation, after `k` of them. -/
theorem repeatExec_next_succ {i : Instr} {k : Nat} {s t u : State} (hruns : repeatExec i k s = .next t)
    (hnext : exec i t = .next u) : repeatExec i (k + 1) s = .next u := by
  rw [repeatExec_add, hruns, andThen_next, repeatExec_succ, hnext, andThen_next, repeatExec_zero]

/-- The word `j` words past the index of the window (R55). -/
def windowWord (s : State) (j : Nat) : Half := wordAt s.drive.pio.data (s.drive.pio.index + j)

/-- The state after `k` words of a window have been read (R151). -/
def wordsRead (k : Nat) (s : State) : State := { s with
  drive.pio.index := s.drive.pio.index + k
  drive.byteCount := s.drive.byteCount - BitVec.ofNat 16 (2 * k)
  events := s.events ++ ((List.range k).map (windowWord s)).map (.readValue .w16) }

theorem byteCount_succ (b : Half) (k : Nat) : b - BitVec.ofNat 16 (2 * k) - 2 = b - BitVec.ofNat 16 (2 * (k + 1)) := by
  rw [Nat.mul_add, BitVec.ofNat_add]
  exact sub_sub _ _ _

/-- One word more (R151). -/
theorem wordsRead_succ (k : Nat) (s : State) :
    (wordTaken (wordsRead k s)).emit (.readValue .w16 (nextWord (wordsRead k s))) = wordsRead (k + 1) s := by
  simp only [wordsRead, wordTaken, State.emit, nextWord, windowWord, List.range_succ, List.map_append, List.map_cons,
    List.map_nil, List.append_assoc, byteCount_succ, Nat.add_assoc]

/-- The reads before the last deliver their words and nothing else (R151). -/
theorem repeatExec_wordsRead {s : State} (hgate : slaveSelected s.drive.driveSelect = false)
    (hstate : s.drive.state = .pioSendData) {k : Nat} (hk : s.drive.pio.index + k < s.drive.pio.size) :
    repeatExec (.r16Data .w16) k s = .next (wordsRead k s) := by
  induction k with
  | zero => simp [wordsRead]
  | succ k ih =>
    refine repeatExec_next_succ (ih (by omega)) ?_
    rw [exec_r16Data_open (s := wordsRead k s) hgate, dataRead_before_last (s := wordsRead k s) hstate hk, wordsRead_succ]

/-- The words of the reads, as values. -/
theorem readValues_map_readValue (words : List Half) : readValues (words.map (.readValue .w16)) = words := by
  induction words with
  | nil => rfl
  | cons w ws ih => exact congrArg (w :: ·) ih

/-- The reads of words raise no line. -/
theorem count_raise_map_readValue (words : List Half) (l : Line) :
    (words.map (Event.readValue .w16)).count (.raise l) = 0 := by
  refine List.count_eq_zero.2 fun hmem => ?_
  obtain ⟨_, -, heq⟩ := List.mem_map.1 hmem
  cases heq

/-- The state after the last word of a reply, the one after `m` others, has been read (R151, R129). -/
def replyDrained (m : Nat) (s : State) : State :=
  (packetDone { wordTaken (wordsRead m s) with drive.status.drq := false }).emit (.readValue .w16 (windowWord s m))

/-- The reads of a whole reply end its command (R151, R129). -/
theorem repeatExec_replyDrained {s : State} (hgate : slaveSelected s.drive.driveSelect = false)
    (hstate : s.drive.state = .pioSendData) (hnext : s.drive.pio.nextState = .pioEnd) {m : Nat}
    (hlast : s.drive.pio.index + m + 1 = s.drive.pio.size) :
    repeatExec (.r16Data .w16) (m + 1) s = .next (replyDrained m s) := by
  refine repeatExec_next_succ (repeatExec_wordsRead hgate hstate (by omega)) ?_
  rw [exec_r16Data_open (s := wordsRead m s) hgate, dataRead_last_pioEnd (s := wordsRead m s) hstate hlast hnext]
  rfl

/-- The events of a reply read to its end: its words, with `CommandComplete` before the last. -/
theorem replyDrained_events (m : Nat) (s : State) : (replyDrained m s).events =
    s.events ++ ((List.range m).map (windowWord s)).map (.readValue .w16) ++
      [.raise .commandComplete] ++ [.readValue .w16 (windowWord s m)] := rfl

/-- Settles O58: the words before the last by induction, then the last one, which ends the command. -/
theorem pioDrain : Obligations.PioDrain := by
  intro s hgate hstate hnext hindex
  obtain ⟨m, hm⟩ : ∃ m, s.drive.pio.size - s.drive.pio.index = m + 1 := ⟨_, (Nat.succ_pred (by omega)).symm⟩
  have hlast : s.drive.pio.index + m + 1 = s.drive.pio.size := by omega
  dsimp only
  rw [hm]
  refine ⟨fun k hk => ?before, replyDrained m s, repeatExec_replyDrained hgate hstate hnext hlast, ?values, ?count,
    rfl, rfl, ?after⟩
  case before =>
    rw [repeatExec_wordsRead hgate hstate (by omega), ← List.map_take, List.take_range, Nat.min_eq_left hk.le]
    rfl
  case values =>
    rw [replyDrained_events, readValues_append, readValues_append, readValues_append, readValues_map_readValue,
      List.range_succ, List.map_append]
    simp only [List.append_assoc]
    rfl
  case count =>
    rw [replyDrained_events, List.count_append, List.count_append, List.count_append, count_raise_map_readValue]
    rfl
  case after =>
    have hdone : (replyDrained m s).drive.state = .waitCommand := rfl
    rw [exec_r16Data_open (s := replyDrained m s) hgate, dataRead_outside (.inl (hdone ▸ by decide)),
      ignoredRead_eq]

end Sys2Proof.Machine
end

section
/-! PROOFS. A play from its start to its end (R280, R281, R283). -/

namespace Sys2Proof.Machine

/-! ### The infinite repeat -/

/-- With the infinite repeat a tick goes on and leaves the count. -/
theorem execTickAudio_infinite {s : State} (hplaying : s.drive.cdda.status = .playing)
    (hinfinite : s.drive.cdda.repeatCount = s.cfg.repeatInfinite) (hpos : s.cfg.repeatInfinite ≠ 0) :
    ∃ t, exec .tickAudio s = .next t ∧ t.drive.cdda.status = .playing ∧ t.cfg = s.cfg ∧
      t.drive.cdda.repeatCount = s.cfg.repeatInfinite := by
  have hrepeat : s.drive.cdda.repeatCount ≠ 0 := fun h0 => hpos (hinfinite.symm.trans h0)
  rw [audioPlays s hplaying]
  by_cases hbefore : (s.drive.cdda.currentFad + 1).toNat < s.drive.cdda.endFad.toNat
  case pos =>
    rw [if_pos hbefore]
    exact ⟨_, rfl, hplaying, rfl, hinfinite⟩
  case neg =>
    rw [if_neg hbefore, if_neg hrepeat, if_pos hinfinite]
    exact ⟨_, rfl, hplaying, rfl, hinfinite⟩

/-- With the infinite repeat the play goes on for ever (R281, R283). -/
theorem repeatExec_tickAudio_infinite {s : State} (hplaying : s.drive.cdda.status = .playing)
    (hinfinite : s.drive.cdda.repeatCount = s.cfg.repeatInfinite) (hpos : s.cfg.repeatInfinite ≠ 0) (k : Nat) :
    ∃ t, repeatExec .tickAudio k s = .next t ∧ t.drive.cdda.status = .playing ∧ t.cfg = s.cfg ∧
      t.drive.cdda.repeatCount = s.cfg.repeatInfinite := by
  induction k with
  | zero => exact ⟨s, rfl, hplaying, rfl, hinfinite⟩
  | succ k ih =>
    obtain ⟨t, hruns, hstatus, hcfg, hcount⟩ := ih
    obtain ⟨u, hnext, hstatus', hcfg', hcount'⟩ :=
      execTickAudio_infinite hstatus (hcount.trans (by rw [hcfg])) (by rwa [hcfg])
    exact ⟨u, repeatExec_next_succ hruns hnext, hstatus', hcfg'.trans hcfg, hcount'.trans (by rw [hcfg])⟩

/-! ### A finite play -/

/-- The number of sectors of one pass. -/
def passLength (s : State) : Nat := s.drive.cdda.endFad.toNat - s.drive.cdda.startFad.toNat

/-- The sectors that the first `k` ticks of a play put out (R280, log entry 9). -/
def playedSectors (s : State) (k : Nat) : List (List Byte) :=
  (List.range k).map fun j =>
    mediaSectors { s with draws := s.draws + j } (s.drive.cdda.startFad + BitVec.ofNat 32 (j % passLength s)) 1
      s.cfg.sectorAudio

/-- The state `t` is `k` undisturbed ticks into the play that begins at `s`, and the play goes on. -/
structure PlayedTo (s : State) (k : Nat) (t : State) : Prop where
  status : t.drive.cdda.status = .playing
  cfg : t.cfg = s.cfg
  media : t.media = s.media
  draws : t.draws = s.draws + k
  startFad : t.drive.cdda.startFad = s.drive.cdda.startFad
  endFad : t.drive.cdda.endFad = s.drive.cdda.endFad
  currentFad : t.drive.cdda.currentFad = s.drive.cdda.startFad + BitVec.ofNat 32 (k % passLength s)
  repeatCount : t.drive.cdda.repeatCount.toNat + k / passLength s = s.drive.cdda.repeatCount.toNat
  sectors : audioSectors t.events = audioSectors s.events ++ playedSectors s k

/-- The sector a tick puts out is the next one of the play. -/
theorem PlayedTo.sectors_succ {s t : State} {k : Nat} (h : PlayedTo s k t) :
    audioSectors (t.events ++ [.audioSector (mediaSectors t t.drive.cdda.currentFad 1 t.cfg.sectorAudio)]) =
      audioSectors s.events ++ playedSectors s (k + 1) := by
  have hsector : mediaSectors t t.drive.cdda.currentFad 1 t.cfg.sectorAudio =
      mediaSectors { s with draws := s.draws + k } (s.drive.cdda.startFad + BitVec.ofNat 32 (k % passLength s)) 1
        s.cfg.sectorAudio := by
    rw [h.currentFad, h.cfg]
    exact mediaSectors_congr h.media (t := { s with draws := s.draws + k }) h.draws _ _ _
  rw [audioSectors_append, h.sectors, hsector, playedSectors, playedSectors, List.range_succ, List.map_append,
    List.append_assoc]
  rfl

/-- The position after a tick's step, as a number: it does not wrap at 32 bits. -/
theorem PlayedTo.toNat_next {s t : State} {k : Nat} (h : PlayedTo s k t) (hpos : 0 < passLength s) :
    (t.drive.cdda.currentFad + 1).toNat = s.drive.cdda.startFad.toNat + (k % passLength s + 1) := by
  have hk := Nat.mod_lt k hpos
  have hend := s.drive.cdda.endFad.isLt
  have hlen : passLength s = s.drive.cdda.endFad.toNat - s.drive.cdda.startFad.toNat := rfl
  have hone : (1 : Fad).toNat = 1 := rfl
  rw [h.currentFad, BitVec.toNat_add, BitVec.toNat_add, BitVec.toNat_ofNat, hone]
  omega

/-- Inside a pass the pass stays and the place in it goes up. -/
theorem div_mod_succ_inside {k len : Nat} (h : k % len + 1 < len) :
    (k + 1) / len = k / len ∧ (k + 1) % len = k % len + 1 := by
  have hk := Nat.mod_add_div k len
  exact (Nat.div_mod_unique (by omega)).2 ⟨by omega, h⟩

/-- At the end of a pass the next one begins. -/
theorem div_mod_succ_end {k len : Nat} (h : k % len + 1 = len) :
    (k + 1) / len = k / len + 1 ∧ (k + 1) % len = 0 := by
  have hk := Nat.mod_add_div k len
  have hmul : len * (k / len + 1) = len * (k / len) + len := Nat.mul_succ _ _
  exact (Nat.div_mod_unique (by omega)).2 ⟨by omega, by omega⟩

/-- The tick inside a pass moves on to its next sector. -/
theorem PlayedTo.next_inside {s t : State} {k : Nat} (h : PlayedTo s k t)
    (hinside : k % passLength s + 1 < passLength s) : ∃ u, exec .tickAudio t = .next u ∧ PlayedTo s (k + 1) u := by
  have hposition := h.toNat_next (by omega)
  have hlen : passLength s = s.drive.cdda.endFad.toNat - s.drive.cdda.startFad.toNat := rfl
  obtain ⟨hdiv, hmod⟩ := div_mod_succ_inside hinside
  have hbefore : (t.drive.cdda.currentFad + 1).toNat < t.drive.cdda.endFad.toNat := by
    rw [hposition, h.endFad]
    omega
  have hsectors := h.sectors_succ
  have hcurrent : t.drive.cdda.currentFad + 1 =
      s.drive.cdda.startFad + BitVec.ofNat 32 ((k + 1) % passLength s) := by
    rw [h.currentFad, hmod, BitVec.ofNat_add, ← BitVec.add_assoc]
    rfl
  have hcount := h.repeatCount
  rw [← hdiv] at hcount
  rw [audioPlays t h.status, if_pos hbefore]
  exact ⟨_, rfl, h.status, h.cfg, h.media, congrArg (· + 1) h.draws, h.startFad, h.endFad, hcurrent, hcount, hsectors⟩

/-- At the end of a pass the position has reached the end. -/
theorem PlayedTo.end_reached {s t : State} {k : Nat} (h : PlayedTo s k t) (hend : k % passLength s + 1 = passLength s) :
    ¬ (t.drive.cdda.currentFad + 1).toNat < t.drive.cdda.endFad.toNat := by
  have hposition := h.toNat_next (by omega)
  have hlen : passLength s = s.drive.cdda.endFad.toNat - s.drive.cdda.startFad.toNat := rfl
  rw [hposition, h.endFad]
  omega

/-- The tick at the end of a pass that is not the last begins the next one, with one repeat less. -/
theorem PlayedTo.next_end {s t : State} {k : Nat} (h : PlayedTo s k t) (hend : k % passLength s + 1 = passLength s)
    (hrepeat : k / passLength s < s.drive.cdda.repeatCount.toNat)
    (hfinite : s.drive.cdda.repeatCount.toNat < s.cfg.repeatInfinite.toNat) :
    ∃ u, exec .tickAudio t = .next u ∧ PlayedTo s (k + 1) u := by
  obtain ⟨hdiv, hmod⟩ := div_mod_succ_end hend
  have hcount := h.repeatCount
  have hpos : 1 ≤ t.drive.cdda.repeatCount.toNat := by omega
  have hne : t.drive.cdda.repeatCount ≠ 0 := fun h0 => by
    rw [h0] at hpos
    exact absurd hpos (by decide)
  have hnotInfinite : t.drive.cdda.repeatCount ≠ t.cfg.repeatInfinite := fun hinf => by
    rw [hinf, h.cfg] at hcount
    exact absurd (Nat.le_of_add_right_le hcount.le) (Nat.not_le_of_lt hfinite)
  have hless : (t.drive.cdda.repeatCount - 1).toNat + (k + 1) / passLength s = s.drive.cdda.repeatCount.toNat := by
    have hone : (1 : BitVec 4).toNat = 1 := rfl
    rw [BitVec.toNat_sub_of_le (by exact hpos), hdiv, hone]
    omega
  have hstart : t.drive.cdda.startFad = s.drive.cdda.startFad + BitVec.ofNat 32 ((k + 1) % passLength s) := by
    rw [hmod, h.startFad, BitVec.add_zero]
  have hsectors := h.sectors_succ
  rw [audioPlays t h.status, if_neg (h.end_reached hend), if_neg hne, if_neg hnotInfinite]
  exact ⟨_, rfl, h.status, h.cfg, h.media, congrArg (· + 1) h.draws, h.startFad, h.endFad, hstart, hless, hsectors⟩

/-- Every tick but the last goes on with the play. -/
theorem repeatExec_playedTo {s : State} (hstart : PlayedTo s 0 s) (hpos : 0 < passLength s)
    (hfinite : s.drive.cdda.repeatCount.toNat < s.cfg.repeatInfinite.toNat) {k : Nat}
    (hk : k < (s.drive.cdda.repeatCount.toNat + 1) * passLength s) :
    ∃ t, repeatExec .tickAudio k s = .next t ∧ PlayedTo s k t := by
  induction k with
  | zero => exact ⟨s, rfl, hstart⟩
  | succ k ih =>
    obtain ⟨t, hruns, ht⟩ := ih (Nat.lt_of_succ_lt hk)
    have hstep : ∃ u, exec .tickAudio t = .next u ∧ PlayedTo s (k + 1) u := by
      rcases Nat.lt_or_eq_of_le (Nat.succ_le_of_lt (Nat.mod_lt k hpos)) with hinside | hend
      · exact ht.next_inside hinside
      · obtain ⟨hdiv, -⟩ := div_mod_succ_end hend
        have hpass := (Nat.div_lt_iff_lt_mul hpos).2 hk
        exact ht.next_end hend (by omega) hfinite
    obtain ⟨u, hnext, hu⟩ := hstep
    exact ⟨u, repeatExec_next_succ hruns hnext, hu⟩

/-- A play that begins at its first sector has put out none. -/
theorem playedTo_zero {s : State} (hplaying : s.drive.cdda.status = .playing)
    (hstart : s.drive.cdda.currentFad = s.drive.cdda.startFad) : PlayedTo s 0 s where
  status := hplaying
  cfg := rfl
  media := rfl
  draws := rfl
  startFad := rfl
  endFad := rfl
  currentFad := by rw [hstart, Nat.zero_mod, BitVec.add_zero]
  repeatCount := by rw [Nat.zero_div, Nat.add_zero]
  sectors := (List.append_nil _).symm

/-- The last tick of the last pass ends the play. -/
theorem PlayedTo.next_last {s t : State} {k : Nat} (h : PlayedTo s k t) (hend : k % passLength s + 1 = passLength s)
    (hlast : k / passLength s = s.drive.cdda.repeatCount.toNat) :
    ∃ u, exec .tickAudio t = .next u ∧ u.drive.cdda.status = .terminated ∧
      u.drive.cdda.currentFad = s.drive.cdda.endFad ∧ u.drive.cdda.repeatCount = 0 ∧
      u.drive.sectorNumber.extractLsb' 0 4 = s.cfg.discStatusPaused ∧
      audioSectors u.events = audioSectors s.events ++ playedSectors s (k + 1) := by
  have hzero : t.drive.cdda.repeatCount = 0 := by
    have hcount := h.repeatCount
    exact BitVec.eq_of_toNat_eq (show _ = 0 by omega)
  have hposition := h.toNat_next (by omega)
  have hlen : passLength s = s.drive.cdda.endFad.toNat - s.drive.cdda.startFad.toNat := rfl
  have hfinal : t.drive.cdda.currentFad + 1 = s.drive.cdda.endFad := BitVec.eq_of_toNat_eq (by omega)
  have hsectors := h.sectors_succ
  rw [audioPlays t h.status, if_neg (h.end_reached hend), if_pos hzero]
  refine ⟨_, rfl, rfl, hfinal, hzero, ?_, hsectors⟩
  rw [← h.cfg]
  exact BitVec.extractLsb'_append_eq_right

/-- Settles O59: the infinite repeat, the ticks before the last, and the last one. -/
theorem audioPasses : Obligations.AudioPasses := by
  refine ⟨fun s k hplaying hinfinite hpos => ?infinite, ?finite⟩
  case infinite =>
    obtain ⟨t, hruns, hstatus, -, hcount⟩ := repeatExec_tickAudio_infinite hplaying hinfinite hpos k
    exact ⟨t, hruns, hstatus, hcount⟩
  case finite =>
    rintro s _ hplaying hstart hlt hfinite rfl
    have hpos : 0 < passLength s := Nat.sub_pos_of_lt hlt
    have hrun {k : Nat} := repeatExec_playedTo (k := k) (playedTo_zero hplaying hstart) hpos hfinite
    refine ⟨fun k hk => ?before, ?last⟩
    case before =>
      obtain ⟨t, hruns, ht⟩ := hrun hk
      exact ⟨t, hruns, ht.status, ht.repeatCount, ht.sectors⟩
    case last =>
      obtain ⟨k, hk⟩ : ∃ k, (s.drive.cdda.repeatCount.toNat + 1) * passLength s = k + 1 :=
        ⟨_, (Nat.succ_pred (Nat.mul_pos (Nat.succ_pos _) hpos).ne').symm⟩
      obtain ⟨hdiv, hmod⟩ := (Nat.div_mod_unique (a := k) (c := passLength s - 1) (d := s.drive.cdda.repeatCount.toNat)
        hpos).2 ⟨by rw [Nat.add_mul, Nat.mul_comm] at hk; omega, Nat.sub_lt hpos Nat.one_pos⟩
      obtain ⟨t, hruns, ht⟩ := hrun (k := k) (by omega)
      obtain ⟨u, hnext, hu⟩ := ht.next_last (by omega) hdiv
      refine ⟨u, ?_, hk ▸ hu⟩
      exact (congrArg (repeatExec .tickAudio · s) hk).trans (repeatExec_next_succ hruns hnext)

end Sys2Proof.Machine
end

section
/-! PROOFS. A DMA read to its end (R254, R256): what is left to deliver, and what a tick takes off it. -/

namespace Sys2Proof.Machine

/-! ### What is left to deliver -/

/-- The bytes left to deliver: those in the cache, and those of the refills to come. -/
def due (s : State) : List Byte :=
  bufSlice s.drive.cache.bytes s.drive.cache.rd s.drive.cache.avail ++
    batches s (sectorBytes s.cfg s.drive.rr.sectorSize) s.drive.rr.remaining.toNat s.draws s.drive.rr.startSector
      s.drive.rr.remaining.toNat

theorem cacheSectors_pos {c : Cfg} (hc : c.Wf) : 1 ≤ c.cacheSectors := by
  obtain ⟨⟨-, -, -, -, -, -, -, hcache, -⟩, -⟩ := hc
  exact hcache

theorem dmaChunkBytes_pos {c : Cfg} (hc : c.Wf) : 1 ≤ c.dmaChunkBytes := by
  obtain ⟨⟨-, -, -, -, -, -, hchunk, -⟩, -⟩ := hc
  exact hchunk

theorem due_length {s : State} (hc : s.cfg.Wf) : (due s).length = outstanding s := by
  rw [due, List.length_append, bufSlice_length, batches_length s (cacheSectors_pos hc) _ _ _ _ _ le_rfl, outstanding]

/-- Nothing is outstanding exactly when the command is over (R254 step 4). -/
theorem outstanding_eq_zero_iff {s : State} (hc : s.cfg.Wf) : outstanding s = 0 ↔ dmaFinished s := by
  have hsize := two_le_sectorBytes hc.2 s.drive.rr.sectorSize
  have hremaining : s.drive.rr.remaining = 0 ↔ s.drive.rr.remaining.toNat = 0 :=
    ⟨fun h => by rw [h]; rfl, fun h => BitVec.eq_of_toNat_eq h⟩
  rw [outstanding, dmaFinished, hremaining, Nat.add_eq_zero_iff, Nat.mul_eq_zero]
  omega

/-- What is left to deliver does not depend on the rest of the state. -/
theorem due_congr {s t : State} (hmedia : t.media = s.media) (hcfg : t.cfg = s.cfg) (hdraws : t.draws = s.draws)
    (hcache : t.drive.cache = s.drive.cache) (hrr : t.drive.rr = s.drive.rr) : due t = due s := by
  rw [due, due, hcache, hrr, hdraws, hcfg, batches_congr hmedia hcfg]

/-! ### The refill -/

/-- The front of a buffer. -/
theorem bufSlice_append_left {a b : List Byte} {n : Nat} (hn : a.length = n) : bufSlice (a ++ b) 0 n = a := by
  subst hn
  simp [bufSlice]

theorem bufSlice_zero (b : List Byte) (a : Nat) : bufSlice b a 0 = [] :=
  List.eq_nil_of_length_eq_zero (bufSlice_length b a 0)

/-- The batches, the first one apart. -/
theorem batches_of_pos {s : State} (hc : 1 ≤ s.cfg.cacheSectors) {size draw remaining : Nat} {start : Fad}
    (hpos : remaining ≠ 0) :
    batches s size remaining draw start remaining =
      mediaSectors { s with draws := draw } start (min remaining s.cfg.cacheSectors) size ++
        batches s size (remaining - min remaining s.cfg.cacheSectors) (draw + 1)
          (start + BitVec.ofNat 32 (min remaining s.cfg.cacheSectors)) (remaining - min remaining s.cfg.cacheSectors) := by
  obtain ⟨fuel, rfl⟩ := Nat.exists_eq_succ_of_ne_zero hpos
  rw [batches, if_neg hpos]
  dsimp only
  rw [batches_fuel s hc size fuel _ _ _ _ (by omega) le_rfl]

/-- The sectors left after a refill. -/
theorem toNat_sub_batch (remaining : BitVec 32) (n : Nat) :
    (remaining - BitVec.ofNat 32 (min remaining.toNat n)).toNat = remaining.toNat - min remaining.toNat n := by
  have hmin : (BitVec.ofNat 32 (min remaining.toNat n)).toNat = min remaining.toNat n :=
    (BitVec.toNat_ofNat ..).trans (Nat.mod_eq_of_lt (Nat.lt_of_le_of_lt (Nat.min_le_left _ _) remaining.isLt))
  have hle : BitVec.ofNat 32 (min remaining.toNat n) ≤ remaining := by
    rw [BitVec.le_def, hmin]
    exact Nat.min_le_left _ _
  rw [BitVec.toNat_sub_of_le hle, hmin]

/-- A refill takes the next batch into the cache, and leaves what is left to deliver as it is (R251). -/
theorem due_dmaRefill {s : State} (hc : s.cfg.Wf) : due (dmaRefill s) = due s := by
  rw [dmaRefill_eq]
  split
  case isFalse => rfl
  case isTrue hrefill =>
    obtain ⟨havail, hremaining⟩ := hrefill
    have hne : s.drive.rr.remaining.toNat ≠ 0 := fun h => hremaining (BitVec.eq_of_toNat_eq h)
    rw [due, due, havail, batches_of_pos (s := s) (cacheSectors_pos hc) hne]
    dsimp only
    rw [bufSlice_append_left (mediaSectors_length ..), toNat_sub_batch, bufSlice_zero, List.nil_append]
    exact congrArg _ (batches_congr (by rfl) (by rfl) _ _ _ _ _)

/-- After the refill the cache holds a byte, if one is outstanding. -/
theorem avail_dmaRefill_pos {s : State} (hc : s.cfg.Wf) (hpos : 0 < outstanding s) :
    0 < (dmaRefill s).drive.cache.avail := by
  have hsize := two_le_sectorBytes hc.2 s.drive.rr.sectorSize
  rw [dmaRefill_eq]
  split
  case isTrue hrefill =>
    obtain ⟨-, hremaining⟩ := hrefill
    have hne : s.drive.rr.remaining.toNat ≠ 0 := fun h => hremaining (BitVec.eq_of_toNat_eq h)
    have hcache := cacheSectors_pos hc
    exact Nat.mul_pos (by omega) (by omega)
  case isFalse hrefill =>
    refine Nat.pos_of_ne_zero fun havail => hpos.ne' ((outstanding_eq_zero_iff hc).2 ⟨?_, havail⟩)
    exact not_not.1 fun hremaining => hrefill ⟨havail, hremaining⟩

/-! ### One tick -/

/-- The bytes a tick stores (R254 step 2). -/
def chunk (s : State) : List Byte :=
  bufSlice (dmaRefill s).drive.cache.bytes (dmaRefill s).drive.cache.rd (dmaCount (dmaRefill s))

theorem chunk_length (s : State) : (chunk s).length = dmaCount (dmaRefill s) := bufSlice_length _ _ _

/-- The state after a tick that runs (R254). -/
def afterTick (s : State) : State := dmaFinish (dmaMoved s)

/-- A tick that runs answers `afterTick`. -/
theorem exec_tickDma_running {s : State} (hruns : DmaRuns s) : exec .tickDma s = .next (afterTick s) :=
  (execTickDma_running hruns.scheduled hruns.start hruns.enable hruns.state hruns.direction).trans
    (dmaChunk_next_dmaFinish hruns.state)

/-- A tick takes its chunk off the front of what is left to deliver (R254 steps 1 and 2). -/
theorem chunk_append_due {s : State} (hc : s.cfg.Wf) : chunk s ++ due (afterTick s) = due s := by
  have hcount := dmaCount_le_avail (dmaRefill s)
  have hslice := bufSlice_add (dmaRefill s).drive.cache.bytes (dmaRefill s).drive.cache.rd (dmaCount (dmaRefill s))
    ((dmaRefill s).drive.cache.avail - dmaCount (dmaRefill s))
  rw [Nat.add_sub_cancel' hcount] at hslice
  have hafter : due (afterTick s) = due { dmaRefill s with drive.cache := {
      bytes := (dmaRefill s).drive.cache.bytes
      rd := (dmaRefill s).drive.cache.rd + dmaCount (dmaRefill s)
      avail := (dmaRefill s).drive.cache.avail - dmaCount (dmaRefill s) } } := by
    rw [afterTick, dmaMoved_eq]
    exact due_congr rfl rfl rfl rfl rfl
  rw [hafter, ← due_dmaRefill hc, due, due, hslice, List.append_assoc, chunk]
  exact congrArg _ (congrArg _ (batches_congr (by rfl) (by rfl) _ _ _ _ _))

end Sys2Proof.Machine
end

section
/-! PROOFS. A DMA read to its end (R254, R256): the ticks of a burst together. -/

namespace Sys2Proof.Machine

/-! ### What a tick writes -/

/-- The bytes left of the burst (R252, R254). -/
def burstLeft (s : State) : Nat := s.dma.length.toNat - s.dma.transferred.toNat

/-- The store of a tick, if it stores a byte (R60). -/
def storeEvents (addr : Addr) (b : List Byte) : List Event := if b.length = 0 then [] else [.hostMemWrite addr b]

theorem storedBytes_storeEvents (addr : Addr) (b : List Byte) : storedBytes (storeEvents addr b) = b := by
  unfold storeEvents
  split
  case isTrue hempty => exact (List.eq_nil_of_length_eq_zero hempty).symm
  case isFalse => exact List.append_nil b

theorem storesFrom_storeEvents (addr : Addr) (b : List Byte) : storesFrom addr (storeEvents addr b) = true := by
  unfold storeEvents
  split
  case isTrue => rfl
  case isFalse => simp [storesFrom]

theorem count_raise_storeEvents (addr : Addr) (b : List Byte) (l : Line) :
    (storeEvents addr b).count (.raise l) = 0 := by
  unfold storeEvents
  split
  case isTrue => rfl
  case isFalse => exact List.count_eq_zero.2 fun hmem => nomatch List.mem_singleton.1 hmem

theorem length_le_of_mem_storeEvents {addr a : Addr} {b c : List Byte} (h : Event.hostMemWrite a c ∈ storeEvents addr b) :
    c.length ≤ b.length := by
  unfold storeEvents at h
  split at h
  case isTrue => cases h
  case isFalse =>
    cases List.mem_singleton.1 h
    exact le_rfl

@[simp] theorem dmaRefill_dma (s : State) : (dmaRefill s).dma = s.dma := by rw [dmaRefill_fields]

@[simp] theorem dmaRefill_cfg (s : State) : (dmaRefill s).cfg = s.cfg := by rw [dmaRefill_fields]

@[simp] theorem dmaRefill_hostMem (s : State) : (dmaRefill s).hostMem = s.hostMem := by rw [dmaRefill_fields]

@[simp] theorem afterTick_cfg (s : State) : (afterTick s).cfg = s.cfg := by
  rw [afterTick, dmaMoved_eq, dmaRefill_fields]
  rfl

/-- A chunk is no longer than the configured size (R254 step 2). -/
theorem chunk_length_le_chunkBytes (s : State) : (chunk s).length ≤ s.cfg.dmaChunkBytes := by
  rw [chunk_length, ← dmaRefill_cfg s]
  exact Nat.min_le_left _ _

/-- A chunk is no longer than what is left of the burst (R254 step 2). -/
theorem chunk_length_le_burstLeft (s : State) : (chunk s).length ≤ burstLeft s := by
  rw [chunk_length, burstLeft, ← dmaRefill_dma s]
  exact Nat.le_trans (Nat.min_le_right _ _) (Nat.min_le_right _ _)

/-- The count of transferred bytes after a tick (R254 step 3). -/
def transferredAfter (s : State) : BitVec 32 := s.dma.transferred + BitVec.ofNat 32 (chunk s).length

/-- The memory, the DMA registers and the events after a tick (R254). -/
theorem afterTick_fields (s : State) :
    (afterTick s).hostMem = memWriteBytes s.hostMem s.dma.cursor (chunk s) ∧
    (afterTick s).dma = { s.dma with
      cursor := s.dma.cursor + BitVec.ofNat 32 (chunk s).length
      transferred := transferredAfter s
      start := s.dma.start && decide (transferredAfter s ≠ s.dma.length) } ∧
    (afterTick s).events = s.events ++ storeEvents s.dma.cursor (chunk s) ++
      (if transferredAfter s = s.dma.length then [.raise .dmaComplete] else []) ++
      (if dmaFinished (afterTick s) then [.raise .commandComplete] else []) := by
  rw [storeEvents, transferredAfter, chunk_length, chunk, ← dmaRefill_dma s, ← dmaRefill_hostMem s, ← dmaRefill_events s,
    afterTick, dmaMoved_eq]
  exact ⟨rfl, rfl, rfl⟩

/-- What the device is after a tick (R254 steps 4 and 5). -/
theorem afterTick_drive (s : State) :
    (afterTick s).drive.state = (if dmaFinished (afterTick s) then .waitCommand else .readSectorDma) ∧
    (dmaFinished (afterTick s) → (afterTick s).drive.status.busy = false) ∧
    (afterTick s).drive.dmaScheduled =
      (s.drive.dmaScheduled && ((afterTick s).dma.start && !decide (dmaFinished (afterTick s)))) := by
  have hscheduled : (dmaMoved s).drive.dmaScheduled = s.drive.dmaScheduled := by rw [dmaMoved_eq, dmaRefill_fields]
  rw [← hscheduled]
  exact ⟨rfl, fun h => if_pos h, rfl⟩

/-- The count does not wrap, for a chunk fits what is left of the burst. -/
theorem toNat_transferredAfter {s : State} (hcounted : s.dma.transferred.toNat ≤ s.dma.length.toNat) :
    (transferredAfter s).toNat = s.dma.transferred.toNat + (chunk s).length := by
  have hchunk := chunk_length_le_burstLeft s
  have hlength := s.dma.length.isLt
  rw [burstLeft] at hchunk
  rw [transferredAfter, BitVec.toNat_add, BitVec.toNat_ofNat]
  omega

/-- The burst is at its length exactly when the chunk is all that was left of it. -/
theorem transferredAfter_eq_length_iff {s : State} (hcounted : s.dma.transferred.toNat ≤ s.dma.length.toNat) :
    transferredAfter s = s.dma.length ↔ (chunk s).length = burstLeft s := by
  rw [← BitVec.toNat_inj, toNat_transferredAfter hcounted, burstLeft]
  omega

/-! ### The ticks of a read -/

/-- A DMA read that is started, with a burst at least as long as what is left to deliver. -/
structure Streaming (s : State) : Prop where
  inv : s.Inv
  runs : DmaRuns s
  counted : s.dma.transferred.toNat ≤ s.dma.length.toNat
  enough : outstanding s ≤ burstLeft s

/-- The state `t` is reached from `s` with the events `es`, and everything left at `s` has been delivered (R256). -/
structure Delivered (s t : State) (es : List Event) : Prop where
  events : t.events = s.events ++ es
  bytes : storedBytes es = due s
  chunks : ∀ a b, Event.hostMemWrite a b ∈ es → b.length ≤ s.cfg.dmaChunkBytes
  consecutive : storesFrom s.dma.cursor es = true
  hostMem : t.hostMem = memWriteBytes s.hostMem s.dma.cursor (due s)
  cursor : t.dma.cursor = s.dma.cursor + BitVec.ofNat 32 (outstanding s)
  complete : es.count (.raise .commandComplete) = 1
  last : es.getLast? = some (.raise .commandComplete)
  dmaComplete : es.count (.raise .dmaComplete) = if outstanding s = burstLeft s then 1 else 0
  state : t.drive.state = .waitCommand
  busy : t.drive.status.busy = false
  scheduled : t.drive.dmaScheduled = false
  nothing : outstanding t = 0

theorem Streaming.cfg {s : State} (h : Streaming s) : s.cfg.Wf := h.inv.sound.cfg

/-- A tick takes off its chunk. -/
theorem Streaming.outstanding_eq {s : State} (h : Streaming s) :
    outstanding s = (chunk s).length + outstanding (afterTick s) := by
  have hcfg : (afterTick s).cfg.Wf := by rw [afterTick_cfg]; exact h.cfg
  rw [← due_length h.cfg, ← due_length hcfg, ← List.length_append, chunk_append_due h.cfg]

/-- A tick that leaves a byte has stored one (R254 step 2). -/
theorem Streaming.chunk_pos {s : State} (h : Streaming s) (hmore : outstanding (afterTick s) ≠ 0) :
    0 < (chunk s).length := by
  have heq := h.outstanding_eq
  have henough := h.enough
  have havail := avail_dmaRefill_pos h.cfg (by omega)
  have hchunk := dmaChunkBytes_pos h.cfg
  have hburst : 0 < burstLeft s := by omega
  rw [chunk_length, dmaCount, dmaRefill_cfg, dmaRefill_dma]
  exact lt_min hchunk (lt_min havail hburst)

/-- The command is over after the tick that leaves nothing, and only then. -/
theorem Streaming.finished_iff {s : State} (h : Streaming s) :
    dmaFinished (afterTick s) ↔ outstanding (afterTick s) = 0 := by
  have hcfg : (afterTick s).cfg.Wf := by rw [afterTick_cfg]; exact h.cfg
  exact (outstanding_eq_zero_iff hcfg).symm

/-- The line `DmaComplete` of a tick (R254 step 3), counted. -/
theorem count_dmaComplete (c : Prop) [Decidable c] :
    (if c then [Event.raise .dmaComplete] else []).count (.raise .dmaComplete) = if c then 1 else 0 := by
  split
  · rfl
  · rfl

/-- The tick that leaves nothing ends the read. -/
theorem Streaming.delivered_last {s : State} (h : Streaming s) (hlast : outstanding (afterTick s) = 0) :
    Delivered s (afterTick s) (storeEvents s.dma.cursor (chunk s) ++
      ((if transferredAfter s = s.dma.length then [.raise .dmaComplete] else []) ++ [.raise .commandComplete])) := by
  have hfinished := h.finished_iff.2 hlast
  have hlength : (chunk s).length = outstanding s := by rw [h.outstanding_eq, hlast, Nat.add_zero]
  have hcfg : (afterTick s).cfg.Wf := by rw [afterTick_cfg]; exact h.cfg
  have hchunk : chunk s = due s := by
    have hnothing : due (afterTick s) = [] := List.eq_nil_of_length_eq_zero ((due_length hcfg).trans hlast)
    rw [← chunk_append_due h.cfg, hnothing, List.append_nil]
  have hburst := transferredAfter_eq_length_iff h.counted
  obtain ⟨hmem, hdma, hevents⟩ := afterTick_fields s
  obtain ⟨hstate, hbusy, hscheduled⟩ := afterTick_drive s
  constructor
  case events => rw [hevents, if_pos hfinished, List.append_assoc, List.append_assoc]
  case bytes =>
    rw [storedBytes_append, storedBytes_storeEvents, hchunk, storedBytes_append]
    split <;> exact List.append_nil _
  case chunks =>
    intro a b hmem
    rcases List.mem_append.1 hmem with hstore | hline
    · exact (length_le_of_mem_storeEvents hstore).trans (chunk_length_le_chunkBytes s)
    · split at hline <;> simp at hline
  case consecutive =>
    rw [storesFrom_append, storesFrom_storeEvents]
    split <;> rfl
  case hostMem => rw [hmem, hchunk]
  case cursor => rw [hdma, hlength]
  case complete =>
    rw [List.count_append, count_raise_storeEvents, Nat.zero_add, List.count_append]
    split <;> rfl
  case last => rw [← List.append_assoc, List.getLast?_concat]
  case dmaComplete =>
    rw [List.count_append, count_raise_storeEvents, Nat.zero_add, List.count_append, count_dmaComplete]
    simp only [hburst, hlength]
    rfl
  case state => rw [hstate, if_pos hfinished]
  case busy => exact hbusy hfinished
  case scheduled => rw [hscheduled, decide_eq_true hfinished, Bool.not_true, Bool.and_false, Bool.and_false]
  case nothing => exact hlast

/-- The tick that leaves a byte goes on with the read: it has stored a chunk, and that is all. -/
theorem Streaming.next {s : State} (h : Streaming s) (hmore : outstanding (afterTick s) ≠ 0) :
    Streaming (afterTick s) ∧ (afterTick s).events = s.events ++ storeEvents s.dma.cursor (chunk s) ∧
      burstLeft s = (chunk s).length + burstLeft (afterTick s) := by
  have hrunning : ¬ dmaFinished (afterTick s) := fun hfinished => hmore (h.finished_iff.1 hfinished)
  have heq := h.outstanding_eq
  have henough := h.enough
  have hburst : transferredAfter s ≠ s.dma.length := fun hlength => by
    have hall := (transferredAfter_eq_length_iff h.counted).1 hlength
    omega
  have htransferred := toNat_transferredAfter h.counted
  have hcounted := h.counted
  have hchunk : (chunk s).length ≤ s.dma.length.toNat - s.dma.transferred.toNat := chunk_length_le_burstLeft s
  obtain ⟨-, hdma, hevents⟩ := afterTick_fields s
  obtain ⟨hstate, -, hscheduled⟩ := afterTick_drive s
  rw [if_neg hrunning] at hstate
  have hstart : (afterTick s).dma.start = true := by rw [hdma, h.runs.start, decide_eq_true hburst]; rfl
  have hleft : burstLeft s = (chunk s).length + burstLeft (afterTick s) := by
    rw [burstLeft, burstLeft, hdma]
    dsimp only
    omega
  refine ⟨⟨?inv, ⟨?scheduled, hstart, ?enable, hstate, ?direction⟩, ?counted, ?enough⟩, ?events, hleft⟩
  case inv => exact ((sure_execTickDma_running h.inv h.runs).next _ (exec_tickDma_running h.runs)).inv
  case scheduled => rw [hscheduled, h.runs.scheduled, hstart, decide_eq_false hrunning]; rfl
  case enable => rw [hdma, h.runs.enable]
  case direction => rw [hdma, afterTick_cfg, h.runs.direction]
  case counted =>
    rw [hdma]
    dsimp only
    omega
  case enough => omega
  case events => rw [hevents, if_neg hburst, if_neg hrunning, List.append_nil, List.append_nil]

/-- A tick before a read that is delivered. -/
theorem Streaming.delivered_cons {s t : State} {es : List Event} (h : Streaming s)
    (hmore : outstanding (afterTick s) ≠ 0) (hrest : Delivered (afterTick s) t es) :
    Delivered s t (storeEvents s.dma.cursor (chunk s) ++ es) := by
  obtain ⟨-, hevents, hleft⟩ := h.next hmore
  obtain ⟨hmem, hdma, -⟩ := afterTick_fields s
  have hcursor : (afterTick s).dma.cursor = s.dma.cursor + BitVec.ofNat 32 (chunk s).length := by rw [hdma]
  have heq := h.outstanding_eq
  have hdue := chunk_append_due h.cfg
  constructor
  case events => rw [hrest.events, hevents, List.append_assoc]
  case bytes => rw [storedBytes_append, storedBytes_storeEvents, hrest.bytes, hdue]
  case chunks =>
    intro a b hstored
    rcases List.mem_append.1 hstored with hfirst | hlater
    · exact (length_le_of_mem_storeEvents hfirst).trans (chunk_length_le_chunkBytes s)
    · exact afterTick_cfg s ▸ hrest.chunks a b hlater
  case consecutive =>
    rw [storesFrom_append, storesFrom_storeEvents, storedBytes_storeEvents, ← hcursor, hrest.consecutive]
    rfl
  case hostMem => rw [hrest.hostMem, hmem, hcursor, ← memWriteBytes_append, hdue]
  case cursor => rw [hrest.cursor, hcursor, BitVec.add_assoc, ← BitVec.ofNat_add, ← heq]
  case complete => rw [List.count_append, count_raise_storeEvents, hrest.complete]
  case last => rw [List.getLast?_append, hrest.last]; rfl
  case dmaComplete =>
    rw [List.count_append, count_raise_storeEvents, hrest.dmaComplete, heq, hleft, Nat.zero_add]
    simp only [Nat.add_left_cancel_iff]
  case state => exact hrest.state
  case busy => exact hrest.busy
  case scheduled => exact hrest.scheduled
  case nothing => exact hrest.nothing

/-- The ticks of a read, by induction on what is left to deliver. -/
theorem Streaming.delivers {s : State} (h : Streaming s) :
    ∃ k t es, repeatExec .tickDma k s = .next t ∧ Delivered s t es := by
  by_cases hlast : outstanding (afterTick s) = 0
  case pos =>
    exact ⟨1, _, _, by rw [repeatExec_succ, exec_tickDma_running h.runs, andThen_next, repeatExec_zero],
      h.delivered_last hlast⟩
  case neg =>
    have hless : outstanding (afterTick s) < outstanding s := by
      have heq := h.outstanding_eq
      have hpos := h.chunk_pos hlast
      omega
    obtain ⟨hnext, -⟩ := h.next hlast
    obtain ⟨k, t, es, hruns, hrest⟩ := hnext.delivers
    exact ⟨k + 1, t, _, by rw [repeatExec_succ, exec_tickDma_running h.runs, andThen_next, hruns],
      h.delivered_cons hlast hrest⟩
termination_by outstanding s

/-- Settles O60: the conclusion is `Delivered`, and what is due has the length of what is outstanding. -/
theorem dmaDelivers : Obligations.DmaDelivers := by
  intro s hinv hstate hscheduled hstart henable hdirection hcounted henough
  obtain ⟨k, t, es, hruns, h⟩ := Streaming.delivers
    ⟨hinv, ⟨hscheduled, hstart, henable, hstate, hdirection⟩, hcounted, henough⟩
  exact ⟨k, t, es, hruns, h.events, h.bytes, due_length hinv.sound.cfg, h.chunks, h.consecutive, h.hostMem, h.cursor,
    h.complete, h.last, h.dmaComplete, h.state, h.busy, h.scheduled, h.nothing⟩

end Sys2Proof.Machine
end
